-- ==== Sys2Proof/Word.lean ====
section
/-! DEFINITION. The two word types of the hardware (00_scope.md R5): 8-bit data and registers, 16-bit addresses and PC.
Their bit fields and byte order are in Machine/Bits.lean. -/

namespace Sys2Proof

/-- `u8`: a register other than PC, or one byte of memory (R5, R11). -/
abbrev Byte := BitVec 8

/-- `u16`: PC or an address (R5, R17, R36). -/
abbrev Addr := BitVec 16

end Sys2Proof
end

