-- ==== Sys2Proof/Machine/Bits.lean ====
section
/-! DEFINITION. Slices, concatenation and extension of words, as 00_scope.md section 5 defines the notation. -/

namespace Sys2Proof.Machine

/-- The notation `{hi, lo}`: the address `hi * 256 + lo`. -/
def wordOf (hi lo : Byte) : Addr := hi ++ lo

/-- `v[15:8]`. -/
def hiByte (w : Addr) : Byte := w.extractLsb' 8 8

/-- `v[7:0]`. -/
def loByte (w : Addr) : Byte := w.extractLsb' 0 8

/-- `zext_16(v)`: the byte as a page-zero address or an unsigned index. -/
def zext16 (v : Byte) : Addr := v.setWidth 16

/-- `sext_16(v)`: the byte read as a two's complement displacement. -/
def sext16 (v : Byte) : Addr := v.signExtend 16

/-- A bit as the byte 0 or 1 (the Carry shifted in by ROL and ROR, R147, R148). -/
def bitByte (c : Bool) : Byte := if c then 1#8 else 0#8

end Sys2Proof.Machine
end

