-- ==== Sys2Proof/Machine/Flags.lean ====
section
/-! DEFINITION. The status register's bits (10_state.md R20) and every computation of a flag: `setNZ` (R23), add and subtract
(R138, R139), compare (R140 to R142), shift and rotate (R145 to R148), BIT (R106). -/

namespace Sys2Proof.Machine

/-- The eight bits of SR by name (R20); `u` is bit 5, "unused". -/
inductive Flag where
  | c | z | i | d | b | u | v | n
deriving DecidableEq, Repr

/-- The bit of SR a flag is (R20). -/
def flagBit : Flag → Nat
  | .c => 0
  | .z => 1
  | .i => 2
  | .d => 3
  | .b => 4
  | .u => 5
  | .v => 6
  | .n => 7

/-- The mask column of R20. -/
def flagMask (f : Flag) : Byte := 1#8 <<< flagBit f

/-- `SR.f`. -/
def getFlag (f : Flag) (sr : Byte) : Bool := sr.getLsbD (flagBit f)

/-- `SR.f <- b`: writes that one bit and leaves the others (00_scope.md section 5). -/
def putFlag (f : Flag) (b : Bool) (sr : Byte) : Byte :=
  if b then sr ||| flagMask f else sr &&& ~~~flagMask f

/-- `SetNZ(v)` (R23) on a status byte: Z and N are written, no other bit. -/
def setNZ (v sr : Byte) : Byte :=
  putFlag .n v.msb (putFlag .z (decide (v = 0#8)) sr)

/-- An 8-bit sum with the two flags it gives. -/
structure AddResult where
  value : Byte
  carry : Bool
  overflow : Bool
deriving DecidableEq, Repr

/-- The sum of ADC (R138), binary whatever D holds (R137): carry is bit 8 of the sum, overflow is
`((A ^ r) & (m ^ r))[7]` with the old A. -/
def addWithCarry (a m : Byte) (c : Bool) : AddResult :=
  let sum := a.toNat + m.toNat + c.toNat
  let r : Byte := BitVec.ofNat 8 sum
  { value := r, carry := sum.testBit 8, overflow := ((a ^^^ r) &&& (m ^^^ r)).msb }

/-- The difference of SBC (R139): ADC of the operand's complement. -/
def subWithBorrow (a m : Byte) (c : Bool) : AddResult := addWithCarry a (~~~m) c

/-- SR after ADC or SBC gave `r`: C, V, then Z and N. -/
def addFlags (r : AddResult) (sr : Byte) : Byte :=
  setNZ r.value (putFlag .v r.overflow (putFlag .c r.carry sr))

/-- SR after comparing register value `r` with `m` (R140 to R142): C is the unsigned `r >= m`, Z and N are those of the
8-bit difference; V is not written and C is not read. -/
def compareFlags (r m sr : Byte) : Byte :=
  setNZ (r - m) (putFlag .c (decide (m.toNat ≤ r.toNat)) sr)

/-- An 8-bit shift result with the Carry it gives. -/
structure ShiftResult where
  value : Byte
  carry : Bool
deriving DecidableEq, Repr

/-- ASL (R145): the old Carry is not an input. -/
def aslResult (v : Byte) (_c : Bool) : ShiftResult := { value := v <<< 1, carry := v.getLsbD 7 }

/-- LSR (R146): the old Carry is not an input. -/
def lsrResult (v : Byte) (_c : Bool) : ShiftResult := { value := v >>> 1, carry := v.getLsbD 0 }

/-- ROL (R147): the old Carry enters bit 0. -/
def rolResult (v : Byte) (c : Bool) : ShiftResult :=
  { value := (v <<< 1) ||| bitByte c, carry := v.getLsbD 7 }

/-- ROR (R148): the old Carry enters bit 7. -/
def rorResult (v : Byte) (c : Bool) : ShiftResult :=
  { value := (v >>> 1) ||| (bitByte c <<< 7), carry := v.getLsbD 0 }

/-- SR after a shift or rotate gave `r`: C, then Z and N (R145 to R148). -/
def shiftFlags (r : ShiftResult) (sr : Byte) : Byte := setNZ r.value (putFlag .c r.carry sr)

/-- SR after BIT of A with operand `m` (R106): Z from `A & m`, V and N from bits 6 and 7 of the operand itself. -/
def bitTestFlags (a m sr : Byte) : Byte :=
  putFlag .n (m.getLsbD 7) (putFlag .v (m.getLsbD 6) (putFlag .z (decide (a &&& m = 0#8)) sr))

end Sys2Proof.Machine
end

