-- ==== Sys2Proof/Config.lean ====
section
/-! DEFINITION. What the implementation fixes (00_scope.md section 4, R5): the reset values and the byte an unlisted address reads as.

The other parameters of that table have one value in this spec and are the shape of a definition under Machine/, where a later
repair can reach them: BCD = false (`addWithCarry`), JMP_IND_PAGE_WRAP = true (`indirectTarget`), INDY_PTR_ZP_WRAP = true
(`pointerRead`), BRK_PUSHED_PC = opcode address + 1 and BRK_SETS_B_IN_SR = false (`takeBreak`), SR_BIT5_FORCED = false
(`State.setSr`), PAGE_CROSS_PENALTY and BRANCH_TAKEN_PENALTY = false and ILLEGAL_CYCLES = none (`fetchInstr`), ISA_EXTENT = the
151 opcodes (`opcodeTable`), IRQ and NMI absent. MEM_INIT is the argument of `State.resetOver`; END_OF_RUN is the argument of
`EndsWithin`. The spec leaves no result of an instruction undefined, so there is no opaque free value here. -/

namespace Sys2Proof.Config

/-- RESET_A, 10_state.md R35. -/
def resetA : Byte := 0xFF#8

/-- RESET_X, R35. -/
def resetX : Byte := 0xFF#8

/-- RESET_Y, R35. -/
def resetY : Byte := 0xFF#8

/-- RESET_SP, R35: the stack is empty and the first push writes 0x01FF. -/
def resetSp : Byte := 0xFF#8

/-- RESET_SR, R35: every flag, bit 5 included, is 1. -/
def resetSr : Byte := 0xFF#8

/-- RESET_PC, R35: there is no reset vector (70_reset_and_hazards.md R187). -/
def resetPc : Addr := 0x0000#16

/-- What an address that the list of memory does not hold reads as. DESIGN CHOICE (log 2): the spec fixes no
initial contents (D17); every contents MEM_INIT is some list, so only `State.reset` rests on this value. Unsafe. -/
def unlistedByte : Byte := 0x00#8

end Sys2Proof.Config
end

