-- ==== Sys2Proof/Machine/Memory.lean ====
section
/-! DEFINITION. The memory behind the port: the plain case of 20_memory.md R39, an array of 65536 bytes in which a read returns
the last value written (log 1), held as a list of cells in one canonical form (addresses strictly rising and below 65536, no
cell that holds what an unlisted address reads as). -/

namespace Sys2Proof.Machine

/-- Address and byte pairs; an address not listed reads as `Config.unlistedByte`. -/
abbrev Memory := List Host.Cell

/-- The byte the list holds at a key. -/
def cellRead : List Host.Cell → Nat → Byte
  | [], _ => Config.unlistedByte
  | (k, v) :: rest, a => if k = a then v else cellRead rest a

/-- A cell put in front, unless it would hold what an unlisted address reads as. -/
def cellCons (a : Nat) (v : Byte) (rest : List Host.Cell) : List Host.Cell :=
  if v = Config.unlistedByte then rest else (a, v) :: rest

/-- The list with one key's byte replaced, in canonical form where the list was. -/
def cellWrite : List Host.Cell → Nat → Byte → List Host.Cell
  | [], a, v => cellCons a v []
  | (k, w) :: rest, a, v =>
    if a < k then cellCons a v ((k, w) :: rest)
    else if a = k then cellCons a v rest
    else (k, w) :: cellWrite rest a v

/-- Canonical form from a lower bound `lo` of the keys on. -/
def cellsWf : Nat → List Host.Cell → Bool
  | _, [] => true
  | lo, (k, v) :: rest =>
    decide (lo ≤ k) && decide (k < 65536) && decide (v ≠ Config.unlistedByte) && cellsWf (k + 1) rest

/-- `readByte` (20_memory.md R37): every address is answered (R38). -/
def Memory.read (m : Memory) (a : Addr) : Byte := cellRead m a.toNat

/-- `writeByte` (20_memory.md R37): every write is accepted (R38). -/
def Memory.write (m : Memory) (a : Addr) (v : Byte) : Memory := cellWrite m a.toNat v

/-- The canonical form: equal memories are equal lists. -/
def Memory.wf (m : Memory) : Bool := cellsWf 0 m

/-- Bytes stored at consecutive addresses modulo 65536, the first at `a`. -/
def Memory.writeBytes (m : Memory) (a : Addr) : List Byte → Memory
  | [] => m
  | v :: rest => Memory.writeBytes (m.write a v) (a + 1#16) rest

end Sys2Proof.Machine
end

