-- ==== Sys2Proof/Syntax.lean ====
section
/-! DEFINITION. The instructions of 30_encoding.md as syntax: mnemonics, addressing modes, operand forms, and `Instr` with one
constructor per row of spec/opcode_table.json (R72). Operand bytes have no reserved values (R76), so every term of `Instr` is
an instruction of the hardware; the pairs of a mnemonic and an operand that are none are WellFormed.lean's business. -/

namespace Sys2Proof

/-- The 56 mnemonics (R72, R73). -/
inductive Mnemonic where
  | lda | ldx | ldy | sta | stx | sty
  | tax | txa | tay | tya | tsx | txs
  | pha | php | pla | plp
  | and | ora | eor | bit
  | inc | dec | inx | dex | iny | dey
  | jmp | jsr | rts
  | brk | nop | rti
  | adc | sbc | cmp | cpx | cpy
  | asl | lsr | rol | ror
  | bpl | bmi | bvc | bvs | bcc | bcs | bne | beq | clc | sec | cli | sei | clv | cld | sed
deriving DecidableEq, Repr

/-- The thirteen addressing modes (R59), by their id in spec/opcode_table.json. -/
inductive Mode where
  | imp | acc | imm | zp | zpx | zpy | abs | absx | absy | indx | indy | ind | rel
deriving DecidableEq, Repr

/-- The operand forms that name a byte of memory (R60 to R67), each with its operand byte or word. -/
inductive MemOperand where
  /-- Zero Page (R60) -/
  | zp (z : Byte)
  /-- Zero Page,X (R61) -/
  | zpx (z : Byte)
  /-- Zero Page,Y (R62) -/
  | zpy (z : Byte)
  /-- Absolute (R63) -/
  | abs (w : Addr)
  /-- Absolute,X (R64) -/
  | absx (w : Addr)
  /-- Absolute,Y (R65) -/
  | absy (w : Addr)
  /-- (Indirect,X) (R66) -/
  | indx (z : Byte)
  /-- (Indirect),Y (R67) -/
  | indy (z : Byte)
deriving DecidableEq, Repr

/-- Where a reading instruction takes its operand value from (R69). -/
inductive Source where
  | imm (v : Byte)
  | mem (m : MemOperand)
deriving DecidableEq, Repr

/-- What a shift or rotate reads and writes (R70, R144). -/
inductive Place where
  | acc
  | mem (m : MemOperand)
deriving DecidableEq, Repr

/-- The operand of an instruction, with its bytes. -/
inductive Operand where
  /-- Implied (R70) -/
  | implied
  /-- Accumulator (R70) -/
  | accumulator
  /-- Immediate (R69) -/
  | immediate (v : Byte)
  /-- one of the eight memory modes; Absolute is also the operand of JMP and JSR -/
  | memory (m : MemOperand)
  /-- Indirect (R68) -/
  | indirect (p : Addr)
  /-- Relative (R71) -/
  | relative (d : Byte)
deriving DecidableEq, Repr

def MemOperand.mode : MemOperand → Mode
  | .zp _ => .zp
  | .zpx _ => .zpx
  | .zpy _ => .zpy
  | .abs _ => .abs
  | .absx _ => .absx
  | .absy _ => .absy
  | .indx _ => .indx
  | .indy _ => .indy

def Operand.mode : Operand → Mode
  | .implied => .imp
  | .accumulator => .acc
  | .immediate _ => .imm
  | .memory m => m.mode
  | .indirect _ => .ind
  | .relative _ => .rel

/-- The operand as a source, where it is one. -/
def Operand.source? : Operand → Option Source
  | .immediate v => some (.imm v)
  | .memory m => some (.mem m)
  | _ => none

/-- The operand as the place a shift works on, where it is one. -/
def Operand.place? : Operand → Option Place
  | .accumulator => some .acc
  | .memory m => some (.mem m)
  | _ => none

/-- The operand as a byte of memory, where it is one. -/
def Operand.memory? : Operand → Option MemOperand
  | .memory m => some m
  | _ => none

/-- Every instruction of the hardware: one constructor per row of spec/opcode_table.json. -/
inductive Instr where
  -- 40_load_store.md
  /-- 0xA9 LDA #v (R81, R69) -/
  | ldaImm (v : Byte)
  /-- 0xA5 LDA z (R81, R60) -/
  | ldaZp (z : Byte)
  /-- 0xB5 LDA z,X (R81, R61) -/
  | ldaZpx (z : Byte)
  /-- 0xAD LDA w (R81, R63) -/
  | ldaAbs (w : Addr)
  /-- 0xBD LDA w,X (R81, R64) -/
  | ldaAbsx (w : Addr)
  /-- 0xB9 LDA w,Y (R81, R65) -/
  | ldaAbsy (w : Addr)
  /-- 0xA1 LDA (z,X) (R81, R66) -/
  | ldaIndx (z : Byte)
  /-- 0xB1 LDA (z),Y (R81, R67) -/
  | ldaIndy (z : Byte)
  /-- 0xA2 LDX #v (R82, R69) -/
  | ldxImm (v : Byte)
  /-- 0xA6 LDX z (R82, R60) -/
  | ldxZp (z : Byte)
  /-- 0xB6 LDX z,Y (R82, R62) -/
  | ldxZpy (z : Byte)
  /-- 0xAE LDX w (R82, R63) -/
  | ldxAbs (w : Addr)
  /-- 0xBE LDX w,Y (R82, R65) -/
  | ldxAbsy (w : Addr)
  /-- 0xA0 LDY #v (R83, R69) -/
  | ldyImm (v : Byte)
  /-- 0xA4 LDY z (R83, R60) -/
  | ldyZp (z : Byte)
  /-- 0xB4 LDY z,X (R83, R61) -/
  | ldyZpx (z : Byte)
  /-- 0xAC LDY w (R83, R63) -/
  | ldyAbs (w : Addr)
  /-- 0xBC LDY w,X (R83, R64) -/
  | ldyAbsx (w : Addr)
  /-- 0x85 STA z (R84, R60) -/
  | staZp (z : Byte)
  /-- 0x95 STA z,X (R84, R61) -/
  | staZpx (z : Byte)
  /-- 0x8D STA w (R84, R63) -/
  | staAbs (w : Addr)
  /-- 0x9D STA w,X (R84, R64) -/
  | staAbsx (w : Addr)
  /-- 0x99 STA w,Y (R84, R65) -/
  | staAbsy (w : Addr)
  /-- 0x81 STA (z,X) (R84, R66) -/
  | staIndx (z : Byte)
  /-- 0x91 STA (z),Y (R84, R67) -/
  | staIndy (z : Byte)
  /-- 0x86 STX z (R85, R60) -/
  | stxZp (z : Byte)
  /-- 0x96 STX z,Y (R85, R62) -/
  | stxZpy (z : Byte)
  /-- 0x8E STX w (R85, R63) -/
  | stxAbs (w : Addr)
  /-- 0x84 STY z (R86, R60) -/
  | styZp (z : Byte)
  /-- 0x94 STY z,X (R86, R61) -/
  | styZpx (z : Byte)
  /-- 0x8C STY w (R86, R63) -/
  | styAbs (w : Addr)
  -- 41_transfer.md
  /-- 0xAA TAX (R90, R70) -/
  | tax
  /-- 0x8A TXA (R91, R70) -/
  | txa
  /-- 0xA8 TAY (R92, R70) -/
  | tay
  /-- 0x98 TYA (R93, R70) -/
  | tya
  /-- 0xBA TSX (R94, R70) -/
  | tsx
  /-- 0x9A TXS (R95, R70) -/
  | txs
  -- 42_stack.md
  /-- 0x48 PHA (R97, R70) -/
  | pha
  /-- 0x08 PHP (R98, R70) -/
  | php
  /-- 0x68 PLA (R99, R70) -/
  | pla
  /-- 0x28 PLP (R100, R70) -/
  | plp
  -- 43_logical.md
  /-- 0x29 AND #v (R103, R69) -/
  | andImm (v : Byte)
  /-- 0x25 AND z (R103, R60) -/
  | andZp (z : Byte)
  /-- 0x35 AND z,X (R103, R61) -/
  | andZpx (z : Byte)
  /-- 0x2D AND w (R103, R63) -/
  | andAbs (w : Addr)
  /-- 0x3D AND w,X (R103, R64) -/
  | andAbsx (w : Addr)
  /-- 0x39 AND w,Y (R103, R65) -/
  | andAbsy (w : Addr)
  /-- 0x21 AND (z,X) (R103, R66) -/
  | andIndx (z : Byte)
  /-- 0x31 AND (z),Y (R103, R67) -/
  | andIndy (z : Byte)
  /-- 0x09 ORA #v (R104, R69) -/
  | oraImm (v : Byte)
  /-- 0x05 ORA z (R104, R60) -/
  | oraZp (z : Byte)
  /-- 0x15 ORA z,X (R104, R61) -/
  | oraZpx (z : Byte)
  /-- 0x0D ORA w (R104, R63) -/
  | oraAbs (w : Addr)
  /-- 0x1D ORA w,X (R104, R64) -/
  | oraAbsx (w : Addr)
  /-- 0x19 ORA w,Y (R104, R65) -/
  | oraAbsy (w : Addr)
  /-- 0x01 ORA (z,X) (R104, R66) -/
  | oraIndx (z : Byte)
  /-- 0x11 ORA (z),Y (R104, R67) -/
  | oraIndy (z : Byte)
  /-- 0x49 EOR #v (R105, R69) -/
  | eorImm (v : Byte)
  /-- 0x45 EOR z (R105, R60) -/
  | eorZp (z : Byte)
  /-- 0x55 EOR z,X (R105, R61) -/
  | eorZpx (z : Byte)
  /-- 0x4D EOR w (R105, R63) -/
  | eorAbs (w : Addr)
  /-- 0x5D EOR w,X (R105, R64) -/
  | eorAbsx (w : Addr)
  /-- 0x59 EOR w,Y (R105, R65) -/
  | eorAbsy (w : Addr)
  /-- 0x41 EOR (z,X) (R105, R66) -/
  | eorIndx (z : Byte)
  /-- 0x51 EOR (z),Y (R105, R67) -/
  | eorIndy (z : Byte)
  /-- 0x24 BIT z (R106, R60) -/
  | bitZp (z : Byte)
  /-- 0x2C BIT w (R106, R63) -/
  | bitAbs (w : Addr)
  -- 44_incdec.md
  /-- 0xE6 INC z (R108, R60) -/
  | incZp (z : Byte)
  /-- 0xF6 INC z,X (R108, R61) -/
  | incZpx (z : Byte)
  /-- 0xEE INC w (R108, R63) -/
  | incAbs (w : Addr)
  /-- 0xFE INC w,X (R108, R64) -/
  | incAbsx (w : Addr)
  /-- 0xC6 DEC z (R109, R60) -/
  | decZp (z : Byte)
  /-- 0xD6 DEC z,X (R109, R61) -/
  | decZpx (z : Byte)
  /-- 0xCE DEC w (R109, R63) -/
  | decAbs (w : Addr)
  /-- 0xDE DEC w,X (R109, R64) -/
  | decAbsx (w : Addr)
  /-- 0xE8 INX (R110, R70) -/
  | inx
  /-- 0xCA DEX (R111, R70) -/
  | dex
  /-- 0xC8 INY (R112, R70) -/
  | iny
  /-- 0x88 DEY (R113, R70) -/
  | dey
  -- 45_jump_call.md
  /-- 0x4C JMP w (R115, R63) -/
  | jmpAbs (w : Addr)
  /-- 0x6C JMP (p) (R116, R68) -/
  | jmpInd (p : Addr)
  /-- 0x20 JSR w (R117, R63) -/
  | jsr (w : Addr)
  /-- 0x60 RTS (R118, R70) -/
  | rts
  -- 46_system.md
  /-- 0x00 BRK (R120, R70) -/
  | brk
  /-- 0xEA NOP (R121, R70) -/
  | nop
  /-- 0x40 RTI (R122, R70) -/
  | rti
  -- 47_arith_compare.md
  /-- 0x69 ADC #v (R138, R69) -/
  | adcImm (v : Byte)
  /-- 0x65 ADC z (R138, R60) -/
  | adcZp (z : Byte)
  /-- 0x75 ADC z,X (R138, R61) -/
  | adcZpx (z : Byte)
  /-- 0x6D ADC w (R138, R63) -/
  | adcAbs (w : Addr)
  /-- 0x7D ADC w,X (R138, R64) -/
  | adcAbsx (w : Addr)
  /-- 0x79 ADC w,Y (R138, R65) -/
  | adcAbsy (w : Addr)
  /-- 0x61 ADC (z,X) (R138, R66) -/
  | adcIndx (z : Byte)
  /-- 0x71 ADC (z),Y (R138, R67) -/
  | adcIndy (z : Byte)
  /-- 0xE9 SBC #v (R139, R69) -/
  | sbcImm (v : Byte)
  /-- 0xE5 SBC z (R139, R60) -/
  | sbcZp (z : Byte)
  /-- 0xF5 SBC z,X (R139, R61) -/
  | sbcZpx (z : Byte)
  /-- 0xED SBC w (R139, R63) -/
  | sbcAbs (w : Addr)
  /-- 0xFD SBC w,X (R139, R64) -/
  | sbcAbsx (w : Addr)
  /-- 0xF9 SBC w,Y (R139, R65) -/
  | sbcAbsy (w : Addr)
  /-- 0xE1 SBC (z,X) (R139, R66) -/
  | sbcIndx (z : Byte)
  /-- 0xF1 SBC (z),Y (R139, R67) -/
  | sbcIndy (z : Byte)
  /-- 0xC9 CMP #v (R140, R69) -/
  | cmpImm (v : Byte)
  /-- 0xC5 CMP z (R140, R60) -/
  | cmpZp (z : Byte)
  /-- 0xD5 CMP z,X (R140, R61) -/
  | cmpZpx (z : Byte)
  /-- 0xCD CMP w (R140, R63) -/
  | cmpAbs (w : Addr)
  /-- 0xDD CMP w,X (R140, R64) -/
  | cmpAbsx (w : Addr)
  /-- 0xD9 CMP w,Y (R140, R65) -/
  | cmpAbsy (w : Addr)
  /-- 0xC1 CMP (z,X) (R140, R66) -/
  | cmpIndx (z : Byte)
  /-- 0xD1 CMP (z),Y (R140, R67) -/
  | cmpIndy (z : Byte)
  /-- 0xE0 CPX #v (R141, R69) -/
  | cpxImm (v : Byte)
  /-- 0xE4 CPX z (R141, R60) -/
  | cpxZp (z : Byte)
  /-- 0xEC CPX w (R141, R63) -/
  | cpxAbs (w : Addr)
  /-- 0xC0 CPY #v (R142, R69) -/
  | cpyImm (v : Byte)
  /-- 0xC4 CPY z (R142, R60) -/
  | cpyZp (z : Byte)
  /-- 0xCC CPY w (R142, R63) -/
  | cpyAbs (w : Addr)
  -- 48_shift_rotate.md
  /-- 0x0A ASL A (R145, R70) -/
  | aslAcc
  /-- 0x06 ASL z (R145, R60) -/
  | aslZp (z : Byte)
  /-- 0x16 ASL z,X (R145, R61) -/
  | aslZpx (z : Byte)
  /-- 0x0E ASL w (R145, R63) -/
  | aslAbs (w : Addr)
  /-- 0x1E ASL w,X (R145, R64) -/
  | aslAbsx (w : Addr)
  /-- 0x4A LSR A (R146, R70) -/
  | lsrAcc
  /-- 0x46 LSR z (R146, R60) -/
  | lsrZp (z : Byte)
  /-- 0x56 LSR z,X (R146, R61) -/
  | lsrZpx (z : Byte)
  /-- 0x4E LSR w (R146, R63) -/
  | lsrAbs (w : Addr)
  /-- 0x5E LSR w,X (R146, R64) -/
  | lsrAbsx (w : Addr)
  /-- 0x2A ROL A (R147, R70) -/
  | rolAcc
  /-- 0x26 ROL z (R147, R60) -/
  | rolZp (z : Byte)
  /-- 0x36 ROL z,X (R147, R61) -/
  | rolZpx (z : Byte)
  /-- 0x2E ROL w (R147, R63) -/
  | rolAbs (w : Addr)
  /-- 0x3E ROL w,X (R147, R64) -/
  | rolAbsx (w : Addr)
  /-- 0x6A ROR A (R148, R70) -/
  | rorAcc
  /-- 0x66 ROR z (R148, R60) -/
  | rorZp (z : Byte)
  /-- 0x76 ROR z,X (R148, R61) -/
  | rorZpx (z : Byte)
  /-- 0x6E ROR w (R148, R63) -/
  | rorAbs (w : Addr)
  /-- 0x7E ROR w,X (R148, R64) -/
  | rorAbsx (w : Addr)
  -- 49_branch_flag.md
  /-- 0x10 BPL d (R151, R71) -/
  | bpl (d : Byte)
  /-- 0x30 BMI d (R152, R71) -/
  | bmi (d : Byte)
  /-- 0x50 BVC d (R153, R71) -/
  | bvc (d : Byte)
  /-- 0x70 BVS d (R154, R71) -/
  | bvs (d : Byte)
  /-- 0x90 BCC d (R155, R71) -/
  | bcc (d : Byte)
  /-- 0xB0 BCS d (R156, R71) -/
  | bcs (d : Byte)
  /-- 0xD0 BNE d (R157, R71) -/
  | bne (d : Byte)
  /-- 0xF0 BEQ d (R158, R71) -/
  | beq (d : Byte)
  /-- 0x18 CLC (R160, R70) -/
  | clc
  /-- 0x38 SEC (R161, R70) -/
  | sec
  /-- 0x58 CLI (R162, R70) -/
  | cli
  /-- 0x78 SEI (R163, R70) -/
  | sei
  /-- 0xB8 CLV (R164, R70) -/
  | clv
  /-- 0xD8 CLD (R165, R70) -/
  | cld
  /-- 0xF8 SED (R166, R70) -/
  | sed
deriving DecidableEq, Repr

/-- An instruction as the spec's text names it: its mnemonic and its operand. -/
def Instr.form : Instr → Mnemonic × Operand
  | .ldaImm v => (.lda, .immediate v)
  | .ldaZp z => (.lda, .memory (.zp z))
  | .ldaZpx z => (.lda, .memory (.zpx z))
  | .ldaAbs w => (.lda, .memory (.abs w))
  | .ldaAbsx w => (.lda, .memory (.absx w))
  | .ldaAbsy w => (.lda, .memory (.absy w))
  | .ldaIndx z => (.lda, .memory (.indx z))
  | .ldaIndy z => (.lda, .memory (.indy z))
  | .ldxImm v => (.ldx, .immediate v)
  | .ldxZp z => (.ldx, .memory (.zp z))
  | .ldxZpy z => (.ldx, .memory (.zpy z))
  | .ldxAbs w => (.ldx, .memory (.abs w))
  | .ldxAbsy w => (.ldx, .memory (.absy w))
  | .ldyImm v => (.ldy, .immediate v)
  | .ldyZp z => (.ldy, .memory (.zp z))
  | .ldyZpx z => (.ldy, .memory (.zpx z))
  | .ldyAbs w => (.ldy, .memory (.abs w))
  | .ldyAbsx w => (.ldy, .memory (.absx w))
  | .staZp z => (.sta, .memory (.zp z))
  | .staZpx z => (.sta, .memory (.zpx z))
  | .staAbs w => (.sta, .memory (.abs w))
  | .staAbsx w => (.sta, .memory (.absx w))
  | .staAbsy w => (.sta, .memory (.absy w))
  | .staIndx z => (.sta, .memory (.indx z))
  | .staIndy z => (.sta, .memory (.indy z))
  | .stxZp z => (.stx, .memory (.zp z))
  | .stxZpy z => (.stx, .memory (.zpy z))
  | .stxAbs w => (.stx, .memory (.abs w))
  | .styZp z => (.sty, .memory (.zp z))
  | .styZpx z => (.sty, .memory (.zpx z))
  | .styAbs w => (.sty, .memory (.abs w))
  | .tax => (.tax, .implied)
  | .txa => (.txa, .implied)
  | .tay => (.tay, .implied)
  | .tya => (.tya, .implied)
  | .tsx => (.tsx, .implied)
  | .txs => (.txs, .implied)
  | .pha => (.pha, .implied)
  | .php => (.php, .implied)
  | .pla => (.pla, .implied)
  | .plp => (.plp, .implied)
  | .andImm v => (.and, .immediate v)
  | .andZp z => (.and, .memory (.zp z))
  | .andZpx z => (.and, .memory (.zpx z))
  | .andAbs w => (.and, .memory (.abs w))
  | .andAbsx w => (.and, .memory (.absx w))
  | .andAbsy w => (.and, .memory (.absy w))
  | .andIndx z => (.and, .memory (.indx z))
  | .andIndy z => (.and, .memory (.indy z))
  | .oraImm v => (.ora, .immediate v)
  | .oraZp z => (.ora, .memory (.zp z))
  | .oraZpx z => (.ora, .memory (.zpx z))
  | .oraAbs w => (.ora, .memory (.abs w))
  | .oraAbsx w => (.ora, .memory (.absx w))
  | .oraAbsy w => (.ora, .memory (.absy w))
  | .oraIndx z => (.ora, .memory (.indx z))
  | .oraIndy z => (.ora, .memory (.indy z))
  | .eorImm v => (.eor, .immediate v)
  | .eorZp z => (.eor, .memory (.zp z))
  | .eorZpx z => (.eor, .memory (.zpx z))
  | .eorAbs w => (.eor, .memory (.abs w))
  | .eorAbsx w => (.eor, .memory (.absx w))
  | .eorAbsy w => (.eor, .memory (.absy w))
  | .eorIndx z => (.eor, .memory (.indx z))
  | .eorIndy z => (.eor, .memory (.indy z))
  | .bitZp z => (.bit, .memory (.zp z))
  | .bitAbs w => (.bit, .memory (.abs w))
  | .incZp z => (.inc, .memory (.zp z))
  | .incZpx z => (.inc, .memory (.zpx z))
  | .incAbs w => (.inc, .memory (.abs w))
  | .incAbsx w => (.inc, .memory (.absx w))
  | .decZp z => (.dec, .memory (.zp z))
  | .decZpx z => (.dec, .memory (.zpx z))
  | .decAbs w => (.dec, .memory (.abs w))
  | .decAbsx w => (.dec, .memory (.absx w))
  | .inx => (.inx, .implied)
  | .dex => (.dex, .implied)
  | .iny => (.iny, .implied)
  | .dey => (.dey, .implied)
  | .jmpAbs w => (.jmp, .memory (.abs w))
  | .jmpInd p => (.jmp, .indirect p)
  | .jsr w => (.jsr, .memory (.abs w))
  | .rts => (.rts, .implied)
  | .brk => (.brk, .implied)
  | .nop => (.nop, .implied)
  | .rti => (.rti, .implied)
  | .adcImm v => (.adc, .immediate v)
  | .adcZp z => (.adc, .memory (.zp z))
  | .adcZpx z => (.adc, .memory (.zpx z))
  | .adcAbs w => (.adc, .memory (.abs w))
  | .adcAbsx w => (.adc, .memory (.absx w))
  | .adcAbsy w => (.adc, .memory (.absy w))
  | .adcIndx z => (.adc, .memory (.indx z))
  | .adcIndy z => (.adc, .memory (.indy z))
  | .sbcImm v => (.sbc, .immediate v)
  | .sbcZp z => (.sbc, .memory (.zp z))
  | .sbcZpx z => (.sbc, .memory (.zpx z))
  | .sbcAbs w => (.sbc, .memory (.abs w))
  | .sbcAbsx w => (.sbc, .memory (.absx w))
  | .sbcAbsy w => (.sbc, .memory (.absy w))
  | .sbcIndx z => (.sbc, .memory (.indx z))
  | .sbcIndy z => (.sbc, .memory (.indy z))
  | .cmpImm v => (.cmp, .immediate v)
  | .cmpZp z => (.cmp, .memory (.zp z))
  | .cmpZpx z => (.cmp, .memory (.zpx z))
  | .cmpAbs w => (.cmp, .memory (.abs w))
  | .cmpAbsx w => (.cmp, .memory (.absx w))
  | .cmpAbsy w => (.cmp, .memory (.absy w))
  | .cmpIndx z => (.cmp, .memory (.indx z))
  | .cmpIndy z => (.cmp, .memory (.indy z))
  | .cpxImm v => (.cpx, .immediate v)
  | .cpxZp z => (.cpx, .memory (.zp z))
  | .cpxAbs w => (.cpx, .memory (.abs w))
  | .cpyImm v => (.cpy, .immediate v)
  | .cpyZp z => (.cpy, .memory (.zp z))
  | .cpyAbs w => (.cpy, .memory (.abs w))
  | .aslAcc => (.asl, .accumulator)
  | .aslZp z => (.asl, .memory (.zp z))
  | .aslZpx z => (.asl, .memory (.zpx z))
  | .aslAbs w => (.asl, .memory (.abs w))
  | .aslAbsx w => (.asl, .memory (.absx w))
  | .lsrAcc => (.lsr, .accumulator)
  | .lsrZp z => (.lsr, .memory (.zp z))
  | .lsrZpx z => (.lsr, .memory (.zpx z))
  | .lsrAbs w => (.lsr, .memory (.abs w))
  | .lsrAbsx w => (.lsr, .memory (.absx w))
  | .rolAcc => (.rol, .accumulator)
  | .rolZp z => (.rol, .memory (.zp z))
  | .rolZpx z => (.rol, .memory (.zpx z))
  | .rolAbs w => (.rol, .memory (.abs w))
  | .rolAbsx w => (.rol, .memory (.absx w))
  | .rorAcc => (.ror, .accumulator)
  | .rorZp z => (.ror, .memory (.zp z))
  | .rorZpx z => (.ror, .memory (.zpx z))
  | .rorAbs w => (.ror, .memory (.abs w))
  | .rorAbsx w => (.ror, .memory (.absx w))
  | .bpl d => (.bpl, .relative d)
  | .bmi d => (.bmi, .relative d)
  | .bvc d => (.bvc, .relative d)
  | .bvs d => (.bvs, .relative d)
  | .bcc d => (.bcc, .relative d)
  | .bcs d => (.bcs, .relative d)
  | .bne d => (.bne, .relative d)
  | .beq d => (.beq, .relative d)
  | .clc => (.clc, .implied)
  | .sec => (.sec, .implied)
  | .cli => (.cli, .implied)
  | .sei => (.sei, .implied)
  | .clv => (.clv, .implied)
  | .cld => (.cld, .implied)
  | .sed => (.sed, .implied)

def Instr.mnemonic (i : Instr) : Mnemonic := i.form.1

def Instr.operand (i : Instr) : Operand := i.form.2

def Instr.mode (i : Instr) : Mode := i.operand.mode

end Sys2Proof
end

