-- ==== Sys2Proof/Machine/State.lean ====
section
/-! DEFINITION. The machine's state as plain data: the six registers of 10_state.md, the memory behind the port, and the outputs of
the last step (92_eei_decisions.md D1; log 3). -/

namespace Sys2Proof.Machine

/-- One access on the memory port (20_memory.md R37): the address presented and the byte answered or written. -/
inductive Access where
  | read (addr : Addr) (value : Byte)
  | write (addr : Addr) (value : Byte)
deriving DecidableEq, Repr

/-- The two values of an illegal-opcode report (60_exceptions.md R171): `ill_opcode` and `ill_addr`. -/
structure IllegalReport where
  opcode : Byte
  addr : Addr
deriving DecidableEq, Repr

structure State where
  /-- accumulator (R11) -/
  a : Byte
  /-- index register X (R11) -/
  x : Byte
  /-- index register Y (R11) -/
  y : Byte
  /-- stack pointer, the low byte of the next free slot of page 1 (R13) -/
  sp : Byte
  /-- status register, eight stored bits (R20); `Flag` names them -/
  sr : Byte
  /-- program counter (R17) -/
  pc : Addr
  /-- the 65536 bytes behind the memory port (R33, R36) -/
  mem : Memory
  /-- output `cycles` of the last step: none before the first step and after an illegal opcode (R190, R172) -/
  cycles : Option Nat
  /-- output `illegal` of the last step with its two values: none after a legal step (R171) -/
  report : Option IllegalReport
  /-- the memory-port accesses of the last step, in order (R44) -/
  accesses : List Access
deriving DecidableEq, Repr

/-- Why the machine stops: never. No constructor, because the hardware has no fault: "all arithmetic is total" and "all memory
accesses are delegated to the collaborator, which is trusted to always return a value or accept a write" (60_exceptions.md R170);
nobody raises one, which is as the hardware does (00_scope.md R9). -/
inductive Fault
deriving DecidableEq, Repr

/-- An instruction without a meaning. -/
inductive Refusal where
  /-- Would be raised by an arm of `exec` that has no meaning yet; no arm raises it. Safe: a run would end there. -/
  | notModelled (mnemonic : String)
deriving DecidableEq, Repr

/-- What executing an instruction answers. -/
abbrev Result := Host.Outcome State Fault Refusal

/-- `A <- v`. -/
def State.setA (s : State) (v : Byte) : State := { s with a := v }
/-- `X <- v`. -/
def State.setX (s : State) (v : Byte) : State := { s with x := v }
/-- `Y <- v`. -/
def State.setY (s : State) (v : Byte) : State := { s with y := v }
/-- `SP <- v`. -/
def State.setSp (s : State) (v : Byte) : State := { s with sp := v }
/-- `SR <- v`, all eight bits as given (R20, R21). -/
def State.setSr (s : State) (v : Byte) : State := { s with sr := v }
/-- `PC <- w`. -/
def State.setPc (s : State) (w : Addr) : State := { s with pc := w }
/-- The memory replaced. -/
def State.setMem (s : State) (m : Memory) : State := { s with mem := m }
/-- The output `cycles`. -/
def State.setCycles (s : State) (c : Option Nat) : State := { s with cycles := c }
/-- The output `illegal`. -/
def State.setReport (s : State) (r : Option IllegalReport) : State := { s with report := r }
/-- The step's accesses so far. -/
def State.setAccesses (s : State) (l : List Access) : State := { s with accesses := l }

/-- The machine right after reset over the initial memory `m` (parameter MEM_INIT, D17): R35. -/
def State.resetOver (m : Memory) : State where
  a := Config.resetA
  x := Config.resetX
  y := Config.resetY
  sp := Config.resetSp
  sr := Config.resetSr
  pc := Config.resetPc
  mem := m
  cycles := none
  report := none
  accesses := []

/-- The machine right after reset with nothing placed in memory (log 2). -/
def State.reset : State := State.resetOver []

end Sys2Proof.Machine
end

