-- ==== Sys2Proof/Machine/Ops.lean ====
section
/-! DEFINITION. The named operations over memory and registers: the memory port, the instruction stream, the stack, `SetNZ` on the
state, trap entry (BRK, 46_system.md R120) with the return from it (RTI, R122), and the illegal-opcode report. -/

namespace Sys2Proof.Machine

/-- One more access on the port, after those the step has made (20_memory.md R44). -/
def logAccess (e : Access) (s : State) : State := s.setAccesses (s.accesses ++ [e])

/-- `MemRead(a, 1)` (20_memory.md R37): the byte, and the state with the access made. -/
def memRead (a : Addr) (s : State) : Byte × State :=
  (s.mem.read a, logAccess (.read a (s.mem.read a)) s)

/-- `MemWrite(a, 1, v)` (20_memory.md R37). -/
def memWrite (a : Addr) (v : Byte) (s : State) : State :=
  logAccess (.write a v) (s.setMem (s.mem.write a v))

/-- `Fetch8()` (10_state.md R17). -/
def fetch8 (s : State) : Byte × State :=
  let r := memRead s.pc s
  (r.1, r.2.setPc (s.pc + 1#16))

/-- `{0x01, SP}`: the stack page is fixed (20_memory.md R47). -/
def stackAddr (sp : Byte) : Addr := wordOf 0x01#8 sp

/-- `Push8(v)` (10_state.md R15): the write at the old SP, then the decrement. -/
def push8 (v : Byte) (s : State) : State :=
  (memWrite (stackAddr s.sp) v s).setSp (s.sp - 1#8)

/-- `Pop8()` (10_state.md R16): the increment, then the read at the new SP. -/
def pop8 (s : State) : Byte × State :=
  memRead (stackAddr (s.sp + 1#8)) (s.setSp (s.sp + 1#8))

/-- A 16-bit value pushed high byte first, then low byte (JSR, R117; BRK, R120). -/
def pushAddr (w : Addr) (s : State) : State := push8 (loByte w) (push8 (hiByte w) s)

/-- A 16-bit value popped low byte first (RTS, R118; RTI, R122). -/
def popAddr (s : State) : Addr × State :=
  let lo := pop8 s
  let hi := pop8 lo.2
  (wordOf hi.1 lo.1, hi.2)

/-- `SetNZ(v)` on the machine's SR (10_state.md R23). -/
def updNZ (v : Byte) (s : State) : State := s.setSr (setNZ v s.sr)

/-- `SR.f <- b` on the machine's SR. -/
def updFlag (f : Flag) (b : Bool) (s : State) : State := s.setSr (putFlag f b s.sr)

/-- Low byte of the BRK vector's address (20_memory.md R48). -/
def brkVectorLo : Addr := 0xFFFE#16

/-- High byte of the BRK vector's address (20_memory.md R48). -/
def brkVectorHi : Addr := 0xFFFF#16

/-- Taking the machine's only trap (46_system.md R120, 60_exceptions.md R176), from the state whose PC is past the BRK opcode:
PC pushed high byte first, SR pushed with the Break bit forced in the copy only, I set, PC loaded from the vector, low byte
first, after the pushes. -/
def takeBreak (s : State) : State :=
  let pushed := push8 (s.sr ||| flagMask .b) (pushAddr s.pc s)
  let masked := updFlag .i true pushed
  let lo := memRead brkVectorLo masked
  let hi := memRead brkVectorHi lo.2
  hi.2.setPc (wordOf hi.1 lo.1)

/-- The return from the trap (46_system.md R122, 60_exceptions.md R178): SR popped raw, then PC, with no increment. -/
def returnFromBreak (s : State) : State :=
  let sr := pop8 s
  let pc := popAddr (sr.2.setSr sr.1)
  pc.2.setPc pc.1

/-- `raise IllegalOpcode(op, addr)` (60_exceptions.md R171): the report and no further state change. -/
def reportIllegal (op : Byte) (addr : Addr) (s : State) : State := s.setReport (some ⟨op, addr⟩)

/-- The outputs of a step before it has made any (R34: nothing of the last step is kept by the core). -/
def clearOutputs (s : State) : State := ((s.setCycles none).setReport none).setAccesses []

end Sys2Proof.Machine
end

