-- ==== Sys2Proof/Machine/Operands.lean ====
section
/-! DEFINITION. Every operand form (30_encoding.md R59 to R71). The instruction's own bytes have been fetched before a meaning runs
(20_memory.md R44, log 5), so a form here holds its operand byte or word, and what remains is the address arithmetic and
the pointer reads. -/

namespace Sys2Proof.Machine

/-- The 16-bit pointer at page-zero location `p`: low byte at `p`, high byte at the next page-zero location, so at 0x0000
for `p = 0xFF` (R66, R67). -/
def pointerRead (p : Byte) (s : State) : Addr × State :=
  let lo := memRead (zext16 p) s
  let hi := memRead (zext16 (p + 1#8)) lo.2
  (wordOf hi.1 lo.1, hi.2)

/-- `EA_<mode>()` of the eight memory modes, with the pointer reads it performs. -/
def effAddr : MemOperand → State → Addr × State
  | .zp z, s => (zext16 z, s)
  | .zpx z, s => (zext16 (z + s.x), s)
  | .zpy z, s => (zext16 (z + s.y), s)
  | .abs w, s => (w, s)
  | .absx w, s => (w + zext16 s.x, s)
  | .absy w, s => (w + zext16 s.y, s)
  | .indx z, s => pointerRead (z + s.x) s
  | .indy z, s => ((pointerRead z s).1 + zext16 s.y, (pointerRead z s).2)

/-- The accesses of `pointerRead`, low byte first (95_test_vectors.md section 2.1). -/
def pointerAccesses (p : Byte) (s : State) : List Access :=
  [.read (zext16 p) (s.mem.read (zext16 p)), .read (zext16 (p + 1#8)) (s.mem.read (zext16 (p + 1#8)))]

/-- The accesses that produce the effective address of a form, beyond the operand fetches (95_test_vectors.md section 2.1). -/
def pointerReads : MemOperand → State → List Access
  | .indx z, s => pointerAccesses (z + s.x) s
  | .indy z, s => pointerAccesses z s
  | .zp _, _ | .zpx _, _ | .zpy _, _ | .abs _, _ | .absx _, _ | .absy _, _ => []

/-- `Operand_<mode>()` (R69): the immediate byte, or one read at the effective address. -/
def readSource : Source → State → Byte × State
  | .imm v, s => (v, s)
  | .mem m, s => memRead (effAddr m s).1 (effAddr m s).2

/-- The accesses of `readSource` (95_test_vectors.md sections 2.1 and 2.2). -/
def sourceReads : Source → State → List Access
  | .imm _, _ => []
  | .mem m, s => pointerReads m s ++ [.read (effAddr m s).1 (s.mem.read (effAddr m s).1)]

/-- One write at the effective address (the destination of STA, STX, STY). -/
def storeTo (m : MemOperand) (v : Byte) (s : State) : State :=
  memWrite (effAddr m s).1 v (effAddr m s).2

/-- The second address of the pointer of JMP Indirect (R68): in the page of the first, whatever its low byte. -/
def pointerHigh (p : Addr) : Addr := wordOf (hiByte p) (loByte p + 1#8)

/-- `EA_ind()` (R68) of the pointer address `p`. -/
def indirectTarget (p : Addr) (s : State) : Addr × State :=
  let lo := memRead p s
  let hi := memRead (pointerHigh p) lo.2
  (wordOf hi.1 lo.1, hi.2)

/-- The target of a taken branch (R71): PC past the operand byte plus the signed displacement. -/
def branchTarget (d : Byte) (s : State) : Addr := s.pc + sext16 d

end Sys2Proof.Machine
end

