-- ==== Sys2Proof/Machine/Arith.lean ====
section
/-! DEFINITION. Arithmetic and compares (47_arith_compare.md), binary whatever the Decimal flag holds (R137). -/

namespace Sys2Proof.Machine

/-- ADC (R138). -/
def addA (src : Source) (s : State) : State :=
  let m := readSource src s
  let r := addWithCarry m.2.a m.1 (getFlag .c m.2.sr)
  (m.2.setSr (addFlags r m.2.sr)).setA r.value

/-- SBC (R139). -/
def subA (src : Source) (s : State) : State :=
  let m := readSource src s
  let r := subWithBorrow m.2.a m.1 (getFlag .c m.2.sr)
  (m.2.setSr (addFlags r m.2.sr)).setA r.value

/-- CMP, CPX, CPY (R140 to R142): register value `r` against the operand; only flags are written. -/
def compareWith (r : Byte) (src : Source) (s : State) : State :=
  let m := readSource src s
  m.2.setSr (compareFlags r m.1 m.2.sr)

/-- ADC #v (R138, R69). -/
def execAdcImm (v : Byte) (s : State) : Result := .next (addA (.imm v) s)

/-- ADC z (R138, R60). -/
def execAdcZp (z : Byte) (s : State) : Result := .next (addA (.mem (.zp z)) s)

/-- ADC z,X (R138, R61). -/
def execAdcZpx (z : Byte) (s : State) : Result := .next (addA (.mem (.zpx z)) s)

/-- ADC w (R138, R63). -/
def execAdcAbs (w : Addr) (s : State) : Result := .next (addA (.mem (.abs w)) s)

/-- ADC w,X (R138, R64). -/
def execAdcAbsx (w : Addr) (s : State) : Result := .next (addA (.mem (.absx w)) s)

/-- ADC w,Y (R138, R65). -/
def execAdcAbsy (w : Addr) (s : State) : Result := .next (addA (.mem (.absy w)) s)

/-- ADC (z,X) (R138, R66). -/
def execAdcIndx (z : Byte) (s : State) : Result := .next (addA (.mem (.indx z)) s)

/-- ADC (z),Y (R138, R67). -/
def execAdcIndy (z : Byte) (s : State) : Result := .next (addA (.mem (.indy z)) s)

/-- SBC #v (R139, R69). -/
def execSbcImm (v : Byte) (s : State) : Result := .next (subA (.imm v) s)

/-- SBC z (R139, R60). -/
def execSbcZp (z : Byte) (s : State) : Result := .next (subA (.mem (.zp z)) s)

/-- SBC z,X (R139, R61). -/
def execSbcZpx (z : Byte) (s : State) : Result := .next (subA (.mem (.zpx z)) s)

/-- SBC w (R139, R63). -/
def execSbcAbs (w : Addr) (s : State) : Result := .next (subA (.mem (.abs w)) s)

/-- SBC w,X (R139, R64). -/
def execSbcAbsx (w : Addr) (s : State) : Result := .next (subA (.mem (.absx w)) s)

/-- SBC w,Y (R139, R65). -/
def execSbcAbsy (w : Addr) (s : State) : Result := .next (subA (.mem (.absy w)) s)

/-- SBC (z,X) (R139, R66). -/
def execSbcIndx (z : Byte) (s : State) : Result := .next (subA (.mem (.indx z)) s)

/-- SBC (z),Y (R139, R67). -/
def execSbcIndy (z : Byte) (s : State) : Result := .next (subA (.mem (.indy z)) s)

/-- CMP #v (R140, R69). -/
def execCmpImm (v : Byte) (s : State) : Result := .next (compareWith s.a (.imm v) s)

/-- CMP z (R140, R60). -/
def execCmpZp (z : Byte) (s : State) : Result := .next (compareWith s.a (.mem (.zp z)) s)

/-- CMP z,X (R140, R61). -/
def execCmpZpx (z : Byte) (s : State) : Result := .next (compareWith s.a (.mem (.zpx z)) s)

/-- CMP w (R140, R63). -/
def execCmpAbs (w : Addr) (s : State) : Result := .next (compareWith s.a (.mem (.abs w)) s)

/-- CMP w,X (R140, R64). -/
def execCmpAbsx (w : Addr) (s : State) : Result := .next (compareWith s.a (.mem (.absx w)) s)

/-- CMP w,Y (R140, R65). -/
def execCmpAbsy (w : Addr) (s : State) : Result := .next (compareWith s.a (.mem (.absy w)) s)

/-- CMP (z,X) (R140, R66). -/
def execCmpIndx (z : Byte) (s : State) : Result := .next (compareWith s.a (.mem (.indx z)) s)

/-- CMP (z),Y (R140, R67). -/
def execCmpIndy (z : Byte) (s : State) : Result := .next (compareWith s.a (.mem (.indy z)) s)

/-- CPX #v (R141, R69). -/
def execCpxImm (v : Byte) (s : State) : Result := .next (compareWith s.x (.imm v) s)

/-- CPX z (R141, R60). -/
def execCpxZp (z : Byte) (s : State) : Result := .next (compareWith s.x (.mem (.zp z)) s)

/-- CPX w (R141, R63). -/
def execCpxAbs (w : Addr) (s : State) : Result := .next (compareWith s.x (.mem (.abs w)) s)

/-- CPY #v (R142, R69). -/
def execCpyImm (v : Byte) (s : State) : Result := .next (compareWith s.y (.imm v) s)

/-- CPY z (R142, R60). -/
def execCpyZp (z : Byte) (s : State) : Result := .next (compareWith s.y (.mem (.zp z)) s)

/-- CPY w (R142, R63). -/
def execCpyAbs (w : Addr) (s : State) : Result := .next (compareWith s.y (.mem (.abs w)) s)

end Sys2Proof.Machine
end

