-- ==== Sys2Proof/Machine/BranchFlag.lean ====
section
/-! DEFINITION. Conditional branches and flag instructions (49_branch_flag.md). -/

namespace Sys2Proof.Machine

/-- The eight branches (R150): PC is already past the displacement byte, which is fetched whether or not the branch is taken. -/
def branchIf (cond : Bool) (d : Byte) (s : State) : State :=
  if cond then s.setPc (branchTarget d s) else s

/-- BPL d (R151, R71). -/
def execBpl (d : Byte) (s : State) : Result := .next (branchIf (!getFlag .n s.sr) d s)

/-- BMI d (R152, R71). -/
def execBmi (d : Byte) (s : State) : Result := .next (branchIf (getFlag .n s.sr) d s)

/-- BVC d (R153, R71). -/
def execBvc (d : Byte) (s : State) : Result := .next (branchIf (!getFlag .v s.sr) d s)

/-- BVS d (R154, R71). -/
def execBvs (d : Byte) (s : State) : Result := .next (branchIf (getFlag .v s.sr) d s)

/-- BCC d (R155, R71). -/
def execBcc (d : Byte) (s : State) : Result := .next (branchIf (!getFlag .c s.sr) d s)

/-- BCS d (R156, R71). -/
def execBcs (d : Byte) (s : State) : Result := .next (branchIf (getFlag .c s.sr) d s)

/-- BNE d (R157, R71). -/
def execBne (d : Byte) (s : State) : Result := .next (branchIf (!getFlag .z s.sr) d s)

/-- BEQ d (R158, R71). -/
def execBeq (d : Byte) (s : State) : Result := .next (branchIf (getFlag .z s.sr) d s)

/-- CLC (R160, R70). -/
def execClc (s : State) : Result := .next (updFlag .c false s)

/-- SEC (R161, R70). -/
def execSec (s : State) : Result := .next (updFlag .c true s)

/-- CLI (R162, R70). -/
def execCli (s : State) : Result := .next (updFlag .i false s)

/-- SEI (R163, R70). -/
def execSei (s : State) : Result := .next (updFlag .i true s)

/-- CLV (R164, R70). -/
def execClv (s : State) : Result := .next (updFlag .v false s)

/-- CLD (R165, R70). -/
def execCld (s : State) : Result := .next (updFlag .d false s)

/-- SED (R166, R70). -/
def execSed (s : State) : Result := .next (updFlag .d true s)

end Sys2Proof.Machine
end

