-- ==== Sys2Proof/Machine/IncDec.lean ====
section
/-! DEFINITION. Increments and decrements (44_incdec.md): Z and N from the new value, Carry and Overflow never. -/

namespace Sys2Proof.Machine

/-- INC and DEC (R108, R109): one read and one write at one effective address, with `f` between. -/
def modifyMem (f : Byte → Byte) (m : MemOperand) (s : State) : State :=
  let ea := effAddr m s
  let v := memRead ea.1 ea.2
  updNZ (f v.1) (memWrite ea.1 (f v.1) v.2)

/-- INC z (R108, R60). -/
def execIncZp (z : Byte) (s : State) : Result := .next (modifyMem (fun v => v + 1#8) (.zp z) s)

/-- INC z,X (R108, R61). -/
def execIncZpx (z : Byte) (s : State) : Result := .next (modifyMem (fun v => v + 1#8) (.zpx z) s)

/-- INC w (R108, R63). -/
def execIncAbs (w : Addr) (s : State) : Result := .next (modifyMem (fun v => v + 1#8) (.abs w) s)

/-- INC w,X (R108, R64). -/
def execIncAbsx (w : Addr) (s : State) : Result := .next (modifyMem (fun v => v + 1#8) (.absx w) s)

/-- DEC z (R109, R60). -/
def execDecZp (z : Byte) (s : State) : Result := .next (modifyMem (fun v => v - 1#8) (.zp z) s)

/-- DEC z,X (R109, R61). -/
def execDecZpx (z : Byte) (s : State) : Result := .next (modifyMem (fun v => v - 1#8) (.zpx z) s)

/-- DEC w (R109, R63). -/
def execDecAbs (w : Addr) (s : State) : Result := .next (modifyMem (fun v => v - 1#8) (.abs w) s)

/-- DEC w,X (R109, R64). -/
def execDecAbsx (w : Addr) (s : State) : Result := .next (modifyMem (fun v => v - 1#8) (.absx w) s)

/-- INX (R110, R70). -/
def execInx (s : State) : Result := .next (updNZ (s.x + 1#8) (s.setX (s.x + 1#8)))

/-- DEX (R111, R70). -/
def execDex (s : State) : Result := .next (updNZ (s.x - 1#8) (s.setX (s.x - 1#8)))

/-- INY (R112, R70). -/
def execIny (s : State) : Result := .next (updNZ (s.y + 1#8) (s.setY (s.y + 1#8)))

/-- DEY (R113, R70). -/
def execDey (s : State) : Result := .next (updNZ (s.y - 1#8) (s.setY (s.y - 1#8)))

end Sys2Proof.Machine
end

