-- ==== Sys2Proof/Machine/Jump.lean ====
section
/-! DEFINITION. Jumps, calls and returns (45_jump_call.md). No flag is changed. -/

namespace Sys2Proof.Machine

/-- JMP Indirect (R116). -/
def jumpIndirect (p : Addr) (s : State) : State :=
  let t := indirectTarget p s
  t.2.setPc t.1

/-- JSR (R117): PC, past all three bytes, minus 1 is pushed, then PC is the target. -/
def callSub (w : Addr) (s : State) : State := (pushAddr (s.pc - 1#16) s).setPc w

/-- RTS (R118): the address popped plus 1. -/
def returnSub (s : State) : State :=
  let r := popAddr s
  r.2.setPc (r.1 + 1#16)

/-- JMP w (R115, R63). -/
def execJmpAbs (w : Addr) (s : State) : Result := .next (s.setPc w)

/-- JMP (p) (R116, R68). -/
def execJmpInd (p : Addr) (s : State) : Result := .next (jumpIndirect p s)

/-- JSR w (R117, R63). -/
def execJsr (w : Addr) (s : State) : Result := .next (callSub w s)

/-- RTS (R118, R70). -/
def execRts (s : State) : Result := .next (returnSub s)

end Sys2Proof.Machine
end

