-- ==== Sys2Proof/Machine/LoadStore.lean ====
section
/-! DEFINITION. Loads and stores (40_load_store.md). A load sets Z and N from the value loaded; a store touches no flag. -/

namespace Sys2Proof.Machine

/-- LDA (R81): the operand into A, Z and N from it. -/
def loadA (src : Source) (s : State) : State :=
  let m := readSource src s
  updNZ m.1 (m.2.setA m.1)

/-- LDX (R82). -/
def loadX (src : Source) (s : State) : State :=
  let m := readSource src s
  updNZ m.1 (m.2.setX m.1)

/-- LDY (R83). -/
def loadY (src : Source) (s : State) : State :=
  let m := readSource src s
  updNZ m.1 (m.2.setY m.1)

/-- STA (R84): A to the effective address. -/
def storeA (m : MemOperand) (s : State) : State := storeTo m s.a s

/-- STX (R85). -/
def storeX (m : MemOperand) (s : State) : State := storeTo m s.x s

/-- STY (R86). -/
def storeY (m : MemOperand) (s : State) : State := storeTo m s.y s

/-- LDA #v (R81, R69). -/
def execLdaImm (v : Byte) (s : State) : Result := .next (loadA (.imm v) s)

/-- LDA z (R81, R60). -/
def execLdaZp (z : Byte) (s : State) : Result := .next (loadA (.mem (.zp z)) s)

/-- LDA z,X (R81, R61). -/
def execLdaZpx (z : Byte) (s : State) : Result := .next (loadA (.mem (.zpx z)) s)

/-- LDA w (R81, R63). -/
def execLdaAbs (w : Addr) (s : State) : Result := .next (loadA (.mem (.abs w)) s)

/-- LDA w,X (R81, R64). -/
def execLdaAbsx (w : Addr) (s : State) : Result := .next (loadA (.mem (.absx w)) s)

/-- LDA w,Y (R81, R65). -/
def execLdaAbsy (w : Addr) (s : State) : Result := .next (loadA (.mem (.absy w)) s)

/-- LDA (z,X) (R81, R66). -/
def execLdaIndx (z : Byte) (s : State) : Result := .next (loadA (.mem (.indx z)) s)

/-- LDA (z),Y (R81, R67). -/
def execLdaIndy (z : Byte) (s : State) : Result := .next (loadA (.mem (.indy z)) s)

/-- LDX #v (R82, R69). -/
def execLdxImm (v : Byte) (s : State) : Result := .next (loadX (.imm v) s)

/-- LDX z (R82, R60). -/
def execLdxZp (z : Byte) (s : State) : Result := .next (loadX (.mem (.zp z)) s)

/-- LDX z,Y (R82, R62). -/
def execLdxZpy (z : Byte) (s : State) : Result := .next (loadX (.mem (.zpy z)) s)

/-- LDX w (R82, R63). -/
def execLdxAbs (w : Addr) (s : State) : Result := .next (loadX (.mem (.abs w)) s)

/-- LDX w,Y (R82, R65). -/
def execLdxAbsy (w : Addr) (s : State) : Result := .next (loadX (.mem (.absy w)) s)

/-- LDY #v (R83, R69). -/
def execLdyImm (v : Byte) (s : State) : Result := .next (loadY (.imm v) s)

/-- LDY z (R83, R60). -/
def execLdyZp (z : Byte) (s : State) : Result := .next (loadY (.mem (.zp z)) s)

/-- LDY z,X (R83, R61). -/
def execLdyZpx (z : Byte) (s : State) : Result := .next (loadY (.mem (.zpx z)) s)

/-- LDY w (R83, R63). -/
def execLdyAbs (w : Addr) (s : State) : Result := .next (loadY (.mem (.abs w)) s)

/-- LDY w,X (R83, R64). -/
def execLdyAbsx (w : Addr) (s : State) : Result := .next (loadY (.mem (.absx w)) s)

/-- STA z (R84, R60). -/
def execStaZp (z : Byte) (s : State) : Result := .next (storeA (.zp z) s)

/-- STA z,X (R84, R61). -/
def execStaZpx (z : Byte) (s : State) : Result := .next (storeA (.zpx z) s)

/-- STA w (R84, R63). -/
def execStaAbs (w : Addr) (s : State) : Result := .next (storeA (.abs w) s)

/-- STA w,X (R84, R64). -/
def execStaAbsx (w : Addr) (s : State) : Result := .next (storeA (.absx w) s)

/-- STA w,Y (R84, R65). -/
def execStaAbsy (w : Addr) (s : State) : Result := .next (storeA (.absy w) s)

/-- STA (z,X) (R84, R66). -/
def execStaIndx (z : Byte) (s : State) : Result := .next (storeA (.indx z) s)

/-- STA (z),Y (R84, R67). -/
def execStaIndy (z : Byte) (s : State) : Result := .next (storeA (.indy z) s)

/-- STX z (R85, R60). -/
def execStxZp (z : Byte) (s : State) : Result := .next (storeX (.zp z) s)

/-- STX z,Y (R85, R62). -/
def execStxZpy (z : Byte) (s : State) : Result := .next (storeX (.zpy z) s)

/-- STX w (R85, R63). -/
def execStxAbs (w : Addr) (s : State) : Result := .next (storeX (.abs w) s)

/-- STY z (R86, R60). -/
def execStyZp (z : Byte) (s : State) : Result := .next (storeY (.zp z) s)

/-- STY z,X (R86, R61). -/
def execStyZpx (z : Byte) (s : State) : Result := .next (storeY (.zpx z) s)

/-- STY w (R86, R63). -/
def execStyAbs (w : Addr) (s : State) : Result := .next (storeY (.abs w) s)

end Sys2Proof.Machine
end

