-- ==== Sys2Proof/Machine/Logical.lean ====
section
/-! DEFINITION. Logical instructions (43_logical.md). -/

namespace Sys2Proof.Machine

/-- AND, ORA, EOR (R103 to R105): A combined with the operand by `f`, Z and N from the result. -/
def logicA (f : Byte → Byte → Byte) (src : Source) (s : State) : State :=
  let m := readSource src s
  updNZ (f m.2.a m.1) (m.2.setA (f m.2.a m.1))

/-- BIT (R106): a memory read and flags, nothing else. -/
def bitTest (src : Source) (s : State) : State :=
  let m := readSource src s
  m.2.setSr (bitTestFlags m.2.a m.1 m.2.sr)

/-- AND #v (R103, R69). -/
def execAndImm (v : Byte) (s : State) : Result := .next (logicA (fun a m => a &&& m) (.imm v) s)

/-- AND z (R103, R60). -/
def execAndZp (z : Byte) (s : State) : Result := .next (logicA (fun a m => a &&& m) (.mem (.zp z)) s)

/-- AND z,X (R103, R61). -/
def execAndZpx (z : Byte) (s : State) : Result := .next (logicA (fun a m => a &&& m) (.mem (.zpx z)) s)

/-- AND w (R103, R63). -/
def execAndAbs (w : Addr) (s : State) : Result := .next (logicA (fun a m => a &&& m) (.mem (.abs w)) s)

/-- AND w,X (R103, R64). -/
def execAndAbsx (w : Addr) (s : State) : Result := .next (logicA (fun a m => a &&& m) (.mem (.absx w)) s)

/-- AND w,Y (R103, R65). -/
def execAndAbsy (w : Addr) (s : State) : Result := .next (logicA (fun a m => a &&& m) (.mem (.absy w)) s)

/-- AND (z,X) (R103, R66). -/
def execAndIndx (z : Byte) (s : State) : Result := .next (logicA (fun a m => a &&& m) (.mem (.indx z)) s)

/-- AND (z),Y (R103, R67). -/
def execAndIndy (z : Byte) (s : State) : Result := .next (logicA (fun a m => a &&& m) (.mem (.indy z)) s)

/-- ORA #v (R104, R69). -/
def execOraImm (v : Byte) (s : State) : Result := .next (logicA (fun a m => a ||| m) (.imm v) s)

/-- ORA z (R104, R60). -/
def execOraZp (z : Byte) (s : State) : Result := .next (logicA (fun a m => a ||| m) (.mem (.zp z)) s)

/-- ORA z,X (R104, R61). -/
def execOraZpx (z : Byte) (s : State) : Result := .next (logicA (fun a m => a ||| m) (.mem (.zpx z)) s)

/-- ORA w (R104, R63). -/
def execOraAbs (w : Addr) (s : State) : Result := .next (logicA (fun a m => a ||| m) (.mem (.abs w)) s)

/-- ORA w,X (R104, R64). -/
def execOraAbsx (w : Addr) (s : State) : Result := .next (logicA (fun a m => a ||| m) (.mem (.absx w)) s)

/-- ORA w,Y (R104, R65). -/
def execOraAbsy (w : Addr) (s : State) : Result := .next (logicA (fun a m => a ||| m) (.mem (.absy w)) s)

/-- ORA (z,X) (R104, R66). -/
def execOraIndx (z : Byte) (s : State) : Result := .next (logicA (fun a m => a ||| m) (.mem (.indx z)) s)

/-- ORA (z),Y (R104, R67). -/
def execOraIndy (z : Byte) (s : State) : Result := .next (logicA (fun a m => a ||| m) (.mem (.indy z)) s)

/-- EOR #v (R105, R69). -/
def execEorImm (v : Byte) (s : State) : Result := .next (logicA (fun a m => a ^^^ m) (.imm v) s)

/-- EOR z (R105, R60). -/
def execEorZp (z : Byte) (s : State) : Result := .next (logicA (fun a m => a ^^^ m) (.mem (.zp z)) s)

/-- EOR z,X (R105, R61). -/
def execEorZpx (z : Byte) (s : State) : Result := .next (logicA (fun a m => a ^^^ m) (.mem (.zpx z)) s)

/-- EOR w (R105, R63). -/
def execEorAbs (w : Addr) (s : State) : Result := .next (logicA (fun a m => a ^^^ m) (.mem (.abs w)) s)

/-- EOR w,X (R105, R64). -/
def execEorAbsx (w : Addr) (s : State) : Result := .next (logicA (fun a m => a ^^^ m) (.mem (.absx w)) s)

/-- EOR w,Y (R105, R65). -/
def execEorAbsy (w : Addr) (s : State) : Result := .next (logicA (fun a m => a ^^^ m) (.mem (.absy w)) s)

/-- EOR (z,X) (R105, R66). -/
def execEorIndx (z : Byte) (s : State) : Result := .next (logicA (fun a m => a ^^^ m) (.mem (.indx z)) s)

/-- EOR (z),Y (R105, R67). -/
def execEorIndy (z : Byte) (s : State) : Result := .next (logicA (fun a m => a ^^^ m) (.mem (.indy z)) s)

/-- BIT z (R106, R60). -/
def execBitZp (z : Byte) (s : State) : Result := .next (bitTest (.mem (.zp z)) s)

/-- BIT w (R106, R63). -/
def execBitAbs (w : Addr) (s : State) : Result := .next (bitTest (.mem (.abs w)) s)

end Sys2Proof.Machine
end

