-- ==== Sys2Proof/Machine/Shift.lean ====
section
/-! DEFINITION. Shifts and rotates by one bit (48_shift_rotate.md). -/

namespace Sys2Proof.Machine

/-- The four instructions' operand access (R144): A in Accumulator mode, else one read and one write at one effective address;
`f` is the instruction's function of the operand and the old Carry. -/
def shiftPlace (f : Byte → Bool → ShiftResult) : Place → State → State
  | .acc, s =>
    let r := f s.a (getFlag .c s.sr)
    (s.setSr (shiftFlags r s.sr)).setA r.value
  | .mem m, s =>
    let ea := effAddr m s
    let v := memRead ea.1 ea.2
    let r := f v.1 (getFlag .c v.2.sr)
    (memWrite ea.1 r.value v.2).setSr (shiftFlags r v.2.sr)

/-- ASL A (R145, R70). -/
def execAslAcc (s : State) : Result := .next (shiftPlace aslResult .acc s)

/-- ASL z (R145, R60). -/
def execAslZp (z : Byte) (s : State) : Result := .next (shiftPlace aslResult (.mem (.zp z)) s)

/-- ASL z,X (R145, R61). -/
def execAslZpx (z : Byte) (s : State) : Result := .next (shiftPlace aslResult (.mem (.zpx z)) s)

/-- ASL w (R145, R63). -/
def execAslAbs (w : Addr) (s : State) : Result := .next (shiftPlace aslResult (.mem (.abs w)) s)

/-- ASL w,X (R145, R64). -/
def execAslAbsx (w : Addr) (s : State) : Result := .next (shiftPlace aslResult (.mem (.absx w)) s)

/-- LSR A (R146, R70). -/
def execLsrAcc (s : State) : Result := .next (shiftPlace lsrResult .acc s)

/-- LSR z (R146, R60). -/
def execLsrZp (z : Byte) (s : State) : Result := .next (shiftPlace lsrResult (.mem (.zp z)) s)

/-- LSR z,X (R146, R61). -/
def execLsrZpx (z : Byte) (s : State) : Result := .next (shiftPlace lsrResult (.mem (.zpx z)) s)

/-- LSR w (R146, R63). -/
def execLsrAbs (w : Addr) (s : State) : Result := .next (shiftPlace lsrResult (.mem (.abs w)) s)

/-- LSR w,X (R146, R64). -/
def execLsrAbsx (w : Addr) (s : State) : Result := .next (shiftPlace lsrResult (.mem (.absx w)) s)

/-- ROL A (R147, R70). -/
def execRolAcc (s : State) : Result := .next (shiftPlace rolResult .acc s)

/-- ROL z (R147, R60). -/
def execRolZp (z : Byte) (s : State) : Result := .next (shiftPlace rolResult (.mem (.zp z)) s)

/-- ROL z,X (R147, R61). -/
def execRolZpx (z : Byte) (s : State) : Result := .next (shiftPlace rolResult (.mem (.zpx z)) s)

/-- ROL w (R147, R63). -/
def execRolAbs (w : Addr) (s : State) : Result := .next (shiftPlace rolResult (.mem (.abs w)) s)

/-- ROL w,X (R147, R64). -/
def execRolAbsx (w : Addr) (s : State) : Result := .next (shiftPlace rolResult (.mem (.absx w)) s)

/-- ROR A (R148, R70). -/
def execRorAcc (s : State) : Result := .next (shiftPlace rorResult .acc s)

/-- ROR z (R148, R60). -/
def execRorZp (z : Byte) (s : State) : Result := .next (shiftPlace rorResult (.mem (.zp z)) s)

/-- ROR z,X (R148, R61). -/
def execRorZpx (z : Byte) (s : State) : Result := .next (shiftPlace rorResult (.mem (.zpx z)) s)

/-- ROR w (R148, R63). -/
def execRorAbs (w : Addr) (s : State) : Result := .next (shiftPlace rorResult (.mem (.abs w)) s)

/-- ROR w,X (R148, R64). -/
def execRorAbsx (w : Addr) (s : State) : Result := .next (shiftPlace rorResult (.mem (.absx w)) s)

end Sys2Proof.Machine
end

