-- ==== Sys2Proof/Machine/Stack.lean ====
section
/-! DEFINITION. Stack instructions (42_stack.md): SR moves raw, all eight bits. -/

namespace Sys2Proof.Machine

/-- PLA (R99): the byte popped into A, Z and N from it. -/
def pullA (s : State) : State :=
  let m := pop8 s
  updNZ m.1 (m.2.setA m.1)

/-- PLP (R100): the byte popped into SR, unmodified. -/
def pullSr (s : State) : State :=
  let m := pop8 s
  m.2.setSr m.1

/-- PHA (R97, R70). -/
def execPha (s : State) : Result := .next (push8 s.a s)

/-- PHP (R98, R70). -/
def execPhp (s : State) : Result := .next (push8 s.sr s)

/-- PLA (R99, R70). -/
def execPla (s : State) : Result := .next (pullA s)

/-- PLP (R100, R70). -/
def execPlp (s : State) : Result := .next (pullSr s)

end Sys2Proof.Machine
end

