-- ==== Sys2Proof/Machine/System.lean ====
section
/-! DEFINITION. System instructions (46_system.md). -/

namespace Sys2Proof.Machine

/-- BRK (R120, R70). -/
def execBrk (s : State) : Result := .next (takeBreak s)

/-- NOP (R121, R70). -/
def execNop (s : State) : Result := .next (s)

/-- RTI (R122, R70). -/
def execRti (s : State) : Result := .next (returnFromBreak s)

end Sys2Proof.Machine
end

