-- ==== Sys2Proof/Machine/Transfer.lean ====
section
/-! DEFINITION. Register transfers (41_transfer.md). All but TXS set Z and N from the value copied. -/

namespace Sys2Proof.Machine

/-- TAX (R90, R70). -/
def execTax (s : State) : Result := .next (updNZ s.a (s.setX s.a))

/-- TXA (R91, R70). -/
def execTxa (s : State) : Result := .next (updNZ s.x (s.setA s.x))

/-- TAY (R92, R70). -/
def execTay (s : State) : Result := .next (updNZ s.a (s.setY s.a))

/-- TYA (R93, R70). -/
def execTya (s : State) : Result := .next (updNZ s.y (s.setA s.y))

/-- TSX (R94, R70). -/
def execTsx (s : State) : Result := .next (updNZ s.sp (s.setX s.sp))

/-- TXS (R95, R70). -/
def execTxs (s : State) : Result := .next (s.setSp s.x)

end Sys2Proof.Machine
end

