-- ==== Sys2Proof/Machine/Dispatch.lean ====
section
/-! DEFINITION. One arm per constructor of `Instr`: the handler of the dispatch table's entry (30_encoding.md R58). `exec i s` runs it at
a state whose PC is past the bytes of `i` (10_state.md R17, log 5). -/

namespace Sys2Proof.Machine

def exec (i : Instr) (s : State) : Host.Outcome State Fault Refusal :=
  match i with
  -- 40_load_store.md
  | .ldaImm v => Sys2Proof.Machine.execLdaImm v s
  | .ldaZp z => Sys2Proof.Machine.execLdaZp z s
  | .ldaZpx z => Sys2Proof.Machine.execLdaZpx z s
  | .ldaAbs w => Sys2Proof.Machine.execLdaAbs w s
  | .ldaAbsx w => Sys2Proof.Machine.execLdaAbsx w s
  | .ldaAbsy w => Sys2Proof.Machine.execLdaAbsy w s
  | .ldaIndx z => Sys2Proof.Machine.execLdaIndx z s
  | .ldaIndy z => Sys2Proof.Machine.execLdaIndy z s
  | .ldxImm v => Sys2Proof.Machine.execLdxImm v s
  | .ldxZp z => Sys2Proof.Machine.execLdxZp z s
  | .ldxZpy z => Sys2Proof.Machine.execLdxZpy z s
  | .ldxAbs w => Sys2Proof.Machine.execLdxAbs w s
  | .ldxAbsy w => Sys2Proof.Machine.execLdxAbsy w s
  | .ldyImm v => Sys2Proof.Machine.execLdyImm v s
  | .ldyZp z => Sys2Proof.Machine.execLdyZp z s
  | .ldyZpx z => Sys2Proof.Machine.execLdyZpx z s
  | .ldyAbs w => Sys2Proof.Machine.execLdyAbs w s
  | .ldyAbsx w => Sys2Proof.Machine.execLdyAbsx w s
  | .staZp z => Sys2Proof.Machine.execStaZp z s
  | .staZpx z => Sys2Proof.Machine.execStaZpx z s
  | .staAbs w => Sys2Proof.Machine.execStaAbs w s
  | .staAbsx w => Sys2Proof.Machine.execStaAbsx w s
  | .staAbsy w => Sys2Proof.Machine.execStaAbsy w s
  | .staIndx z => Sys2Proof.Machine.execStaIndx z s
  | .staIndy z => Sys2Proof.Machine.execStaIndy z s
  | .stxZp z => Sys2Proof.Machine.execStxZp z s
  | .stxZpy z => Sys2Proof.Machine.execStxZpy z s
  | .stxAbs w => Sys2Proof.Machine.execStxAbs w s
  | .styZp z => Sys2Proof.Machine.execStyZp z s
  | .styZpx z => Sys2Proof.Machine.execStyZpx z s
  | .styAbs w => Sys2Proof.Machine.execStyAbs w s
  -- 41_transfer.md
  | .tax => Sys2Proof.Machine.execTax s
  | .txa => Sys2Proof.Machine.execTxa s
  | .tay => Sys2Proof.Machine.execTay s
  | .tya => Sys2Proof.Machine.execTya s
  | .tsx => Sys2Proof.Machine.execTsx s
  | .txs => Sys2Proof.Machine.execTxs s
  -- 42_stack.md
  | .pha => Sys2Proof.Machine.execPha s
  | .php => Sys2Proof.Machine.execPhp s
  | .pla => Sys2Proof.Machine.execPla s
  | .plp => Sys2Proof.Machine.execPlp s
  -- 43_logical.md
  | .andImm v => Sys2Proof.Machine.execAndImm v s
  | .andZp z => Sys2Proof.Machine.execAndZp z s
  | .andZpx z => Sys2Proof.Machine.execAndZpx z s
  | .andAbs w => Sys2Proof.Machine.execAndAbs w s
  | .andAbsx w => Sys2Proof.Machine.execAndAbsx w s
  | .andAbsy w => Sys2Proof.Machine.execAndAbsy w s
  | .andIndx z => Sys2Proof.Machine.execAndIndx z s
  | .andIndy z => Sys2Proof.Machine.execAndIndy z s
  | .oraImm v => Sys2Proof.Machine.execOraImm v s
  | .oraZp z => Sys2Proof.Machine.execOraZp z s
  | .oraZpx z => Sys2Proof.Machine.execOraZpx z s
  | .oraAbs w => Sys2Proof.Machine.execOraAbs w s
  | .oraAbsx w => Sys2Proof.Machine.execOraAbsx w s
  | .oraAbsy w => Sys2Proof.Machine.execOraAbsy w s
  | .oraIndx z => Sys2Proof.Machine.execOraIndx z s
  | .oraIndy z => Sys2Proof.Machine.execOraIndy z s
  | .eorImm v => Sys2Proof.Machine.execEorImm v s
  | .eorZp z => Sys2Proof.Machine.execEorZp z s
  | .eorZpx z => Sys2Proof.Machine.execEorZpx z s
  | .eorAbs w => Sys2Proof.Machine.execEorAbs w s
  | .eorAbsx w => Sys2Proof.Machine.execEorAbsx w s
  | .eorAbsy w => Sys2Proof.Machine.execEorAbsy w s
  | .eorIndx z => Sys2Proof.Machine.execEorIndx z s
  | .eorIndy z => Sys2Proof.Machine.execEorIndy z s
  | .bitZp z => Sys2Proof.Machine.execBitZp z s
  | .bitAbs w => Sys2Proof.Machine.execBitAbs w s
  -- 44_incdec.md
  | .incZp z => Sys2Proof.Machine.execIncZp z s
  | .incZpx z => Sys2Proof.Machine.execIncZpx z s
  | .incAbs w => Sys2Proof.Machine.execIncAbs w s
  | .incAbsx w => Sys2Proof.Machine.execIncAbsx w s
  | .decZp z => Sys2Proof.Machine.execDecZp z s
  | .decZpx z => Sys2Proof.Machine.execDecZpx z s
  | .decAbs w => Sys2Proof.Machine.execDecAbs w s
  | .decAbsx w => Sys2Proof.Machine.execDecAbsx w s
  | .inx => Sys2Proof.Machine.execInx s
  | .dex => Sys2Proof.Machine.execDex s
  | .iny => Sys2Proof.Machine.execIny s
  | .dey => Sys2Proof.Machine.execDey s
  -- 45_jump_call.md
  | .jmpAbs w => Sys2Proof.Machine.execJmpAbs w s
  | .jmpInd p => Sys2Proof.Machine.execJmpInd p s
  | .jsr w => Sys2Proof.Machine.execJsr w s
  | .rts => Sys2Proof.Machine.execRts s
  -- 46_system.md
  | .brk => Sys2Proof.Machine.execBrk s
  | .nop => Sys2Proof.Machine.execNop s
  | .rti => Sys2Proof.Machine.execRti s
  -- 47_arith_compare.md
  | .adcImm v => Sys2Proof.Machine.execAdcImm v s
  | .adcZp z => Sys2Proof.Machine.execAdcZp z s
  | .adcZpx z => Sys2Proof.Machine.execAdcZpx z s
  | .adcAbs w => Sys2Proof.Machine.execAdcAbs w s
  | .adcAbsx w => Sys2Proof.Machine.execAdcAbsx w s
  | .adcAbsy w => Sys2Proof.Machine.execAdcAbsy w s
  | .adcIndx z => Sys2Proof.Machine.execAdcIndx z s
  | .adcIndy z => Sys2Proof.Machine.execAdcIndy z s
  | .sbcImm v => Sys2Proof.Machine.execSbcImm v s
  | .sbcZp z => Sys2Proof.Machine.execSbcZp z s
  | .sbcZpx z => Sys2Proof.Machine.execSbcZpx z s
  | .sbcAbs w => Sys2Proof.Machine.execSbcAbs w s
  | .sbcAbsx w => Sys2Proof.Machine.execSbcAbsx w s
  | .sbcAbsy w => Sys2Proof.Machine.execSbcAbsy w s
  | .sbcIndx z => Sys2Proof.Machine.execSbcIndx z s
  | .sbcIndy z => Sys2Proof.Machine.execSbcIndy z s
  | .cmpImm v => Sys2Proof.Machine.execCmpImm v s
  | .cmpZp z => Sys2Proof.Machine.execCmpZp z s
  | .cmpZpx z => Sys2Proof.Machine.execCmpZpx z s
  | .cmpAbs w => Sys2Proof.Machine.execCmpAbs w s
  | .cmpAbsx w => Sys2Proof.Machine.execCmpAbsx w s
  | .cmpAbsy w => Sys2Proof.Machine.execCmpAbsy w s
  | .cmpIndx z => Sys2Proof.Machine.execCmpIndx z s
  | .cmpIndy z => Sys2Proof.Machine.execCmpIndy z s
  | .cpxImm v => Sys2Proof.Machine.execCpxImm v s
  | .cpxZp z => Sys2Proof.Machine.execCpxZp z s
  | .cpxAbs w => Sys2Proof.Machine.execCpxAbs w s
  | .cpyImm v => Sys2Proof.Machine.execCpyImm v s
  | .cpyZp z => Sys2Proof.Machine.execCpyZp z s
  | .cpyAbs w => Sys2Proof.Machine.execCpyAbs w s
  -- 48_shift_rotate.md
  | .aslAcc => Sys2Proof.Machine.execAslAcc s
  | .aslZp z => Sys2Proof.Machine.execAslZp z s
  | .aslZpx z => Sys2Proof.Machine.execAslZpx z s
  | .aslAbs w => Sys2Proof.Machine.execAslAbs w s
  | .aslAbsx w => Sys2Proof.Machine.execAslAbsx w s
  | .lsrAcc => Sys2Proof.Machine.execLsrAcc s
  | .lsrZp z => Sys2Proof.Machine.execLsrZp z s
  | .lsrZpx z => Sys2Proof.Machine.execLsrZpx z s
  | .lsrAbs w => Sys2Proof.Machine.execLsrAbs w s
  | .lsrAbsx w => Sys2Proof.Machine.execLsrAbsx w s
  | .rolAcc => Sys2Proof.Machine.execRolAcc s
  | .rolZp z => Sys2Proof.Machine.execRolZp z s
  | .rolZpx z => Sys2Proof.Machine.execRolZpx z s
  | .rolAbs w => Sys2Proof.Machine.execRolAbs w s
  | .rolAbsx w => Sys2Proof.Machine.execRolAbsx w s
  | .rorAcc => Sys2Proof.Machine.execRorAcc s
  | .rorZp z => Sys2Proof.Machine.execRorZp z s
  | .rorZpx z => Sys2Proof.Machine.execRorZpx z s
  | .rorAbs w => Sys2Proof.Machine.execRorAbs w s
  | .rorAbsx w => Sys2Proof.Machine.execRorAbsx w s
  -- 49_branch_flag.md
  | .bpl d => Sys2Proof.Machine.execBpl d s
  | .bmi d => Sys2Proof.Machine.execBmi d s
  | .bvc d => Sys2Proof.Machine.execBvc d s
  | .bvs d => Sys2Proof.Machine.execBvs d s
  | .bcc d => Sys2Proof.Machine.execBcc d s
  | .bcs d => Sys2Proof.Machine.execBcs d s
  | .bne d => Sys2Proof.Machine.execBne d s
  | .beq d => Sys2Proof.Machine.execBeq d s
  | .clc => Sys2Proof.Machine.execClc s
  | .sec => Sys2Proof.Machine.execSec s
  | .cli => Sys2Proof.Machine.execCli s
  | .sei => Sys2Proof.Machine.execSei s
  | .clv => Sys2Proof.Machine.execClv s
  | .cld => Sys2Proof.Machine.execCld s
  | .sed => Sys2Proof.Machine.execSed s

end Sys2Proof.Machine
end

