-- ==== Sys2Proof/WellFormed.lean ====
section
/-! DEFINITION. Which mnemonic has which addressing modes, from the tables at the head of each family file (30_encoding.md R72), and the
check that a mnemonic with an operand is an instruction of the hardware. Every term of `Instr` passes it (Laws/PerInstr.lean); the
smoke tests show that it refuses other pairs. -/

namespace Sys2Proof

/-- The addressing modes the dispatch table gives a mnemonic. -/
def legalModes : Mnemonic → List Mode
  | .lda | .and | .ora | .eor | .adc | .sbc | .cmp => [.imm, .zp, .zpx, .abs, .absx, .absy, .indx, .indy]
  | .ldx => [.imm, .zp, .zpy, .abs, .absy]
  | .ldy => [.imm, .zp, .zpx, .abs, .absx]
  | .sta => [.zp, .zpx, .abs, .absx, .absy, .indx, .indy]
  | .stx => [.zp, .zpy, .abs]
  | .sty => [.zp, .zpx, .abs]
  | .tax | .txa | .tay | .tya | .tsx | .txs | .pha | .php | .pla | .plp | .inx | .dex | .iny | .dey | .rts
    | .brk | .nop | .rti | .clc | .sec | .cli | .sei | .clv | .cld | .sed => [.imp]
  | .bit => [.zp, .abs]
  | .inc | .dec => [.zp, .zpx, .abs, .absx]
  | .jmp => [.abs, .ind]
  | .jsr => [.abs]
  | .cpx | .cpy => [.imm, .zp, .abs]
  | .asl | .lsr | .rol | .ror => [.acc, .zp, .zpx, .abs, .absx]
  | .bpl | .bmi | .bvc | .bvs | .bcc | .bcs | .bne | .beq => [.rel]

/-- The mnemonic has the operand's mode. -/
def wellFormedForm (m : Mnemonic) (o : Operand) : Bool := decide (o.mode ∈ legalModes m)

/-- The instruction is one of the dispatch table. -/
def Instr.wellFormed (i : Instr) : Bool := wellFormedForm i.mnemonic i.operand

end Sys2Proof
end

