-- ==== Sys2Proof/Decode.lean ====
section
/-! DEFINITION. The dispatch table (30_encoding.md R58, R72), the decoder over it, total on any bytes and rejecting by name, and the
encoder, written from the opcode tables of the family files 40 to 49. -/

namespace Sys2Proof

open Sys2Proof.Machine (wordOf loByte hiByte)

/-- The three formats by length (R56), each with the instruction the operand bytes complete. -/
inductive Form where
  /-- F1: the opcode byte alone -/
  | f1 (i : Instr)
  /-- F2: one operand byte -/
  | f2 (make : Byte → Instr)
  /-- F3: two operand bytes, low byte first -/
  | f3 (make : Addr → Instr)

/-- The length in bytes (R57). -/
def Form.length : Form → Nat
  | .f1 _ => 1
  | .f2 _ => 2
  | .f3 _ => 3

/-- An entry of the dispatch table: an opcode byte, the instruction it selects, and its base cycle cost. -/
structure Row where
  opcode : Byte
  form : Form
  cycles : Nat

/-- Row 0x of R72. -/
def opcodeRow0 : List Row :=
  [ ⟨0x00#8, .f1 .brk, 7⟩
  , ⟨0x01#8, .f2 .oraIndx, 6⟩
  , ⟨0x05#8, .f2 .oraZp, 3⟩
  , ⟨0x06#8, .f2 .aslZp, 5⟩
  , ⟨0x08#8, .f1 .php, 3⟩
  , ⟨0x09#8, .f2 .oraImm, 2⟩
  , ⟨0x0A#8, .f1 .aslAcc, 2⟩
  , ⟨0x0D#8, .f3 .oraAbs, 4⟩
  , ⟨0x0E#8, .f3 .aslAbs, 6⟩ ]

/-- Row 1x of R72. -/
def opcodeRow1 : List Row :=
  [ ⟨0x10#8, .f2 .bpl, 2⟩
  , ⟨0x11#8, .f2 .oraIndy, 5⟩
  , ⟨0x15#8, .f2 .oraZpx, 4⟩
  , ⟨0x16#8, .f2 .aslZpx, 6⟩
  , ⟨0x18#8, .f1 .clc, 2⟩
  , ⟨0x19#8, .f3 .oraAbsy, 4⟩
  , ⟨0x1D#8, .f3 .oraAbsx, 4⟩
  , ⟨0x1E#8, .f3 .aslAbsx, 7⟩ ]

/-- Row 2x of R72. -/
def opcodeRow2 : List Row :=
  [ ⟨0x20#8, .f3 .jsr, 6⟩
  , ⟨0x21#8, .f2 .andIndx, 6⟩
  , ⟨0x24#8, .f2 .bitZp, 3⟩
  , ⟨0x25#8, .f2 .andZp, 3⟩
  , ⟨0x26#8, .f2 .rolZp, 5⟩
  , ⟨0x28#8, .f1 .plp, 4⟩
  , ⟨0x29#8, .f2 .andImm, 2⟩
  , ⟨0x2A#8, .f1 .rolAcc, 2⟩
  , ⟨0x2C#8, .f3 .bitAbs, 4⟩
  , ⟨0x2D#8, .f3 .andAbs, 4⟩
  , ⟨0x2E#8, .f3 .rolAbs, 6⟩ ]

/-- Row 3x of R72. -/
def opcodeRow3 : List Row :=
  [ ⟨0x30#8, .f2 .bmi, 2⟩
  , ⟨0x31#8, .f2 .andIndy, 5⟩
  , ⟨0x35#8, .f2 .andZpx, 4⟩
  , ⟨0x36#8, .f2 .rolZpx, 6⟩
  , ⟨0x38#8, .f1 .sec, 2⟩
  , ⟨0x39#8, .f3 .andAbsy, 4⟩
  , ⟨0x3D#8, .f3 .andAbsx, 4⟩
  , ⟨0x3E#8, .f3 .rolAbsx, 7⟩ ]

/-- Row 4x of R72. -/
def opcodeRow4 : List Row :=
  [ ⟨0x40#8, .f1 .rti, 6⟩
  , ⟨0x41#8, .f2 .eorIndx, 6⟩
  , ⟨0x45#8, .f2 .eorZp, 3⟩
  , ⟨0x46#8, .f2 .lsrZp, 5⟩
  , ⟨0x48#8, .f1 .pha, 3⟩
  , ⟨0x49#8, .f2 .eorImm, 2⟩
  , ⟨0x4A#8, .f1 .lsrAcc, 2⟩
  , ⟨0x4C#8, .f3 .jmpAbs, 3⟩
  , ⟨0x4D#8, .f3 .eorAbs, 4⟩
  , ⟨0x4E#8, .f3 .lsrAbs, 6⟩ ]

/-- Row 5x of R72. -/
def opcodeRow5 : List Row :=
  [ ⟨0x50#8, .f2 .bvc, 2⟩
  , ⟨0x51#8, .f2 .eorIndy, 5⟩
  , ⟨0x55#8, .f2 .eorZpx, 4⟩
  , ⟨0x56#8, .f2 .lsrZpx, 6⟩
  , ⟨0x58#8, .f1 .cli, 2⟩
  , ⟨0x59#8, .f3 .eorAbsy, 4⟩
  , ⟨0x5D#8, .f3 .eorAbsx, 4⟩
  , ⟨0x5E#8, .f3 .lsrAbsx, 7⟩ ]

/-- Row 6x of R72. -/
def opcodeRow6 : List Row :=
  [ ⟨0x60#8, .f1 .rts, 6⟩
  , ⟨0x61#8, .f2 .adcIndx, 6⟩
  , ⟨0x65#8, .f2 .adcZp, 3⟩
  , ⟨0x66#8, .f2 .rorZp, 5⟩
  , ⟨0x68#8, .f1 .pla, 4⟩
  , ⟨0x69#8, .f2 .adcImm, 2⟩
  , ⟨0x6A#8, .f1 .rorAcc, 2⟩
  , ⟨0x6C#8, .f3 .jmpInd, 5⟩
  , ⟨0x6D#8, .f3 .adcAbs, 4⟩
  , ⟨0x6E#8, .f3 .rorAbs, 6⟩ ]

/-- Row 7x of R72. -/
def opcodeRow7 : List Row :=
  [ ⟨0x70#8, .f2 .bvs, 2⟩
  , ⟨0x71#8, .f2 .adcIndy, 5⟩
  , ⟨0x75#8, .f2 .adcZpx, 4⟩
  , ⟨0x76#8, .f2 .rorZpx, 6⟩
  , ⟨0x78#8, .f1 .sei, 2⟩
  , ⟨0x79#8, .f3 .adcAbsy, 4⟩
  , ⟨0x7D#8, .f3 .adcAbsx, 4⟩
  , ⟨0x7E#8, .f3 .rorAbsx, 7⟩ ]

/-- Row 8x of R72. -/
def opcodeRow8 : List Row :=
  [ ⟨0x81#8, .f2 .staIndx, 6⟩
  , ⟨0x84#8, .f2 .styZp, 3⟩
  , ⟨0x85#8, .f2 .staZp, 3⟩
  , ⟨0x86#8, .f2 .stxZp, 3⟩
  , ⟨0x88#8, .f1 .dey, 2⟩
  , ⟨0x8A#8, .f1 .txa, 2⟩
  , ⟨0x8C#8, .f3 .styAbs, 4⟩
  , ⟨0x8D#8, .f3 .staAbs, 4⟩
  , ⟨0x8E#8, .f3 .stxAbs, 4⟩ ]

/-- Row 9x of R72. -/
def opcodeRow9 : List Row :=
  [ ⟨0x90#8, .f2 .bcc, 2⟩
  , ⟨0x91#8, .f2 .staIndy, 6⟩
  , ⟨0x94#8, .f2 .styZpx, 4⟩
  , ⟨0x95#8, .f2 .staZpx, 4⟩
  , ⟨0x96#8, .f2 .stxZpy, 4⟩
  , ⟨0x98#8, .f1 .tya, 2⟩
  , ⟨0x99#8, .f3 .staAbsy, 5⟩
  , ⟨0x9A#8, .f1 .txs, 2⟩
  , ⟨0x9D#8, .f3 .staAbsx, 5⟩ ]

/-- Row Ax of R72. -/
def opcodeRowA : List Row :=
  [ ⟨0xA0#8, .f2 .ldyImm, 2⟩
  , ⟨0xA1#8, .f2 .ldaIndx, 6⟩
  , ⟨0xA2#8, .f2 .ldxImm, 2⟩
  , ⟨0xA4#8, .f2 .ldyZp, 3⟩
  , ⟨0xA5#8, .f2 .ldaZp, 3⟩
  , ⟨0xA6#8, .f2 .ldxZp, 3⟩
  , ⟨0xA8#8, .f1 .tay, 2⟩
  , ⟨0xA9#8, .f2 .ldaImm, 2⟩
  , ⟨0xAA#8, .f1 .tax, 2⟩
  , ⟨0xAC#8, .f3 .ldyAbs, 4⟩
  , ⟨0xAD#8, .f3 .ldaAbs, 4⟩
  , ⟨0xAE#8, .f3 .ldxAbs, 4⟩ ]

/-- Row Bx of R72. -/
def opcodeRowB : List Row :=
  [ ⟨0xB0#8, .f2 .bcs, 2⟩
  , ⟨0xB1#8, .f2 .ldaIndy, 5⟩
  , ⟨0xB4#8, .f2 .ldyZpx, 4⟩
  , ⟨0xB5#8, .f2 .ldaZpx, 4⟩
  , ⟨0xB6#8, .f2 .ldxZpy, 4⟩
  , ⟨0xB8#8, .f1 .clv, 2⟩
  , ⟨0xB9#8, .f3 .ldaAbsy, 4⟩
  , ⟨0xBA#8, .f1 .tsx, 2⟩
  , ⟨0xBC#8, .f3 .ldyAbsx, 4⟩
  , ⟨0xBD#8, .f3 .ldaAbsx, 4⟩
  , ⟨0xBE#8, .f3 .ldxAbsy, 4⟩ ]

/-- Row Cx of R72. -/
def opcodeRowC : List Row :=
  [ ⟨0xC0#8, .f2 .cpyImm, 2⟩
  , ⟨0xC1#8, .f2 .cmpIndx, 6⟩
  , ⟨0xC4#8, .f2 .cpyZp, 3⟩
  , ⟨0xC5#8, .f2 .cmpZp, 3⟩
  , ⟨0xC6#8, .f2 .decZp, 5⟩
  , ⟨0xC8#8, .f1 .iny, 2⟩
  , ⟨0xC9#8, .f2 .cmpImm, 2⟩
  , ⟨0xCA#8, .f1 .dex, 2⟩
  , ⟨0xCC#8, .f3 .cpyAbs, 4⟩
  , ⟨0xCD#8, .f3 .cmpAbs, 4⟩
  , ⟨0xCE#8, .f3 .decAbs, 6⟩ ]

/-- Row Dx of R72. -/
def opcodeRowD : List Row :=
  [ ⟨0xD0#8, .f2 .bne, 2⟩
  , ⟨0xD1#8, .f2 .cmpIndy, 5⟩
  , ⟨0xD5#8, .f2 .cmpZpx, 4⟩
  , ⟨0xD6#8, .f2 .decZpx, 6⟩
  , ⟨0xD8#8, .f1 .cld, 2⟩
  , ⟨0xD9#8, .f3 .cmpAbsy, 4⟩
  , ⟨0xDD#8, .f3 .cmpAbsx, 4⟩
  , ⟨0xDE#8, .f3 .decAbsx, 7⟩ ]

/-- Row Ex of R72. -/
def opcodeRowE : List Row :=
  [ ⟨0xE0#8, .f2 .cpxImm, 2⟩
  , ⟨0xE1#8, .f2 .sbcIndx, 6⟩
  , ⟨0xE4#8, .f2 .cpxZp, 3⟩
  , ⟨0xE5#8, .f2 .sbcZp, 3⟩
  , ⟨0xE6#8, .f2 .incZp, 5⟩
  , ⟨0xE8#8, .f1 .inx, 2⟩
  , ⟨0xE9#8, .f2 .sbcImm, 2⟩
  , ⟨0xEA#8, .f1 .nop, 2⟩
  , ⟨0xEC#8, .f3 .cpxAbs, 4⟩
  , ⟨0xED#8, .f3 .sbcAbs, 4⟩
  , ⟨0xEE#8, .f3 .incAbs, 6⟩ ]

/-- Row Fx of R72. -/
def opcodeRowF : List Row :=
  [ ⟨0xF0#8, .f2 .beq, 2⟩
  , ⟨0xF1#8, .f2 .sbcIndy, 5⟩
  , ⟨0xF5#8, .f2 .sbcZpx, 4⟩
  , ⟨0xF6#8, .f2 .incZpx, 6⟩
  , ⟨0xF8#8, .f1 .sed, 2⟩
  , ⟨0xF9#8, .f3 .sbcAbsy, 4⟩
  , ⟨0xFD#8, .f3 .sbcAbsx, 4⟩
  , ⟨0xFE#8, .f3 .incAbsx, 7⟩ ]

/-- The dispatch table, a constant of the hardware (R58): 151 entries; the other 105 values are illegal (R74). -/
def opcodeTable : List Row :=
  opcodeRow0 ++ opcodeRow1 ++ opcodeRow2 ++ opcodeRow3 ++ opcodeRow4 ++ opcodeRow5 ++ opcodeRow6 ++ opcodeRow7 ++
  opcodeRow8 ++ opcodeRow9 ++ opcodeRowA ++ opcodeRowB ++ opcodeRowC ++ opcodeRowD ++ opcodeRowE ++ opcodeRowF

/-- The entry of an opcode byte: "unmapped entries represent illegal opcodes" (R58). -/
def lookupOpcode (op : Byte) : Option Row := opcodeTable.find? (fun r => r.opcode == op)

/-- Why bytes decode to no instruction. A list too short is no case of the spec (log 8). -/
inductive Reject where
  /-- an opcode byte with no table entry (R74) -/
  | illegalOpcode (op : Byte)
  /-- fewer bytes than the opcode's length -/
  | truncated (op : Byte)
  /-- no byte at all -/
  | noBytes
deriving DecidableEq, Repr

/-- What the decoder answers: an instruction with the bytes after it, or a rejection by name. -/
inductive Decoded where
  | instr (i : Instr) (rest : List Byte)
  | rejected (why : Reject)
deriving DecidableEq, Repr

/-- The operand bytes that complete a form, taken from the bytes after the opcode, low byte first (R40, R56). -/
def completeForm (op : Byte) : Form → List Byte → Decoded
  | .f1 i, rest => .instr i rest
  | .f2 make, b :: rest => .instr (make b) rest
  | .f3 make, lo :: hi :: rest => .instr (make (wordOf hi lo)) rest
  | .f2 _, [] => .rejected (.truncated op)
  | .f3 _, [] => .rejected (.truncated op)
  | .f3 _, [_] => .rejected (.truncated op)

/-- The first instruction of a byte sequence. -/
def decode : List Byte → Decoded
  | [] => .rejected .noBytes
  | op :: rest =>
    match lookupOpcode op with
    | none => .rejected (.illegalOpcode op)
    | some row => completeForm op row.form rest

/-- The opcode byte of an instruction, from the tables of the family files 40 to 49. -/
def Instr.opcode : Instr → Byte
  | .ldaImm _ => 0xA9#8
  | .ldaZp _ => 0xA5#8
  | .ldaZpx _ => 0xB5#8
  | .ldaAbs _ => 0xAD#8
  | .ldaAbsx _ => 0xBD#8
  | .ldaAbsy _ => 0xB9#8
  | .ldaIndx _ => 0xA1#8
  | .ldaIndy _ => 0xB1#8
  | .ldxImm _ => 0xA2#8
  | .ldxZp _ => 0xA6#8
  | .ldxZpy _ => 0xB6#8
  | .ldxAbs _ => 0xAE#8
  | .ldxAbsy _ => 0xBE#8
  | .ldyImm _ => 0xA0#8
  | .ldyZp _ => 0xA4#8
  | .ldyZpx _ => 0xB4#8
  | .ldyAbs _ => 0xAC#8
  | .ldyAbsx _ => 0xBC#8
  | .staZp _ => 0x85#8
  | .staZpx _ => 0x95#8
  | .staAbs _ => 0x8D#8
  | .staAbsx _ => 0x9D#8
  | .staAbsy _ => 0x99#8
  | .staIndx _ => 0x81#8
  | .staIndy _ => 0x91#8
  | .stxZp _ => 0x86#8
  | .stxZpy _ => 0x96#8
  | .stxAbs _ => 0x8E#8
  | .styZp _ => 0x84#8
  | .styZpx _ => 0x94#8
  | .styAbs _ => 0x8C#8
  | .tax => 0xAA#8
  | .txa => 0x8A#8
  | .tay => 0xA8#8
  | .tya => 0x98#8
  | .tsx => 0xBA#8
  | .txs => 0x9A#8
  | .pha => 0x48#8
  | .php => 0x08#8
  | .pla => 0x68#8
  | .plp => 0x28#8
  | .andImm _ => 0x29#8
  | .andZp _ => 0x25#8
  | .andZpx _ => 0x35#8
  | .andAbs _ => 0x2D#8
  | .andAbsx _ => 0x3D#8
  | .andAbsy _ => 0x39#8
  | .andIndx _ => 0x21#8
  | .andIndy _ => 0x31#8
  | .oraImm _ => 0x09#8
  | .oraZp _ => 0x05#8
  | .oraZpx _ => 0x15#8
  | .oraAbs _ => 0x0D#8
  | .oraAbsx _ => 0x1D#8
  | .oraAbsy _ => 0x19#8
  | .oraIndx _ => 0x01#8
  | .oraIndy _ => 0x11#8
  | .eorImm _ => 0x49#8
  | .eorZp _ => 0x45#8
  | .eorZpx _ => 0x55#8
  | .eorAbs _ => 0x4D#8
  | .eorAbsx _ => 0x5D#8
  | .eorAbsy _ => 0x59#8
  | .eorIndx _ => 0x41#8
  | .eorIndy _ => 0x51#8
  | .bitZp _ => 0x24#8
  | .bitAbs _ => 0x2C#8
  | .incZp _ => 0xE6#8
  | .incZpx _ => 0xF6#8
  | .incAbs _ => 0xEE#8
  | .incAbsx _ => 0xFE#8
  | .decZp _ => 0xC6#8
  | .decZpx _ => 0xD6#8
  | .decAbs _ => 0xCE#8
  | .decAbsx _ => 0xDE#8
  | .inx => 0xE8#8
  | .dex => 0xCA#8
  | .iny => 0xC8#8
  | .dey => 0x88#8
  | .jmpAbs _ => 0x4C#8
  | .jmpInd _ => 0x6C#8
  | .jsr _ => 0x20#8
  | .rts => 0x60#8
  | .brk => 0x00#8
  | .nop => 0xEA#8
  | .rti => 0x40#8
  | .adcImm _ => 0x69#8
  | .adcZp _ => 0x65#8
  | .adcZpx _ => 0x75#8
  | .adcAbs _ => 0x6D#8
  | .adcAbsx _ => 0x7D#8
  | .adcAbsy _ => 0x79#8
  | .adcIndx _ => 0x61#8
  | .adcIndy _ => 0x71#8
  | .sbcImm _ => 0xE9#8
  | .sbcZp _ => 0xE5#8
  | .sbcZpx _ => 0xF5#8
  | .sbcAbs _ => 0xED#8
  | .sbcAbsx _ => 0xFD#8
  | .sbcAbsy _ => 0xF9#8
  | .sbcIndx _ => 0xE1#8
  | .sbcIndy _ => 0xF1#8
  | .cmpImm _ => 0xC9#8
  | .cmpZp _ => 0xC5#8
  | .cmpZpx _ => 0xD5#8
  | .cmpAbs _ => 0xCD#8
  | .cmpAbsx _ => 0xDD#8
  | .cmpAbsy _ => 0xD9#8
  | .cmpIndx _ => 0xC1#8
  | .cmpIndy _ => 0xD1#8
  | .cpxImm _ => 0xE0#8
  | .cpxZp _ => 0xE4#8
  | .cpxAbs _ => 0xEC#8
  | .cpyImm _ => 0xC0#8
  | .cpyZp _ => 0xC4#8
  | .cpyAbs _ => 0xCC#8
  | .aslAcc => 0x0A#8
  | .aslZp _ => 0x06#8
  | .aslZpx _ => 0x16#8
  | .aslAbs _ => 0x0E#8
  | .aslAbsx _ => 0x1E#8
  | .lsrAcc => 0x4A#8
  | .lsrZp _ => 0x46#8
  | .lsrZpx _ => 0x56#8
  | .lsrAbs _ => 0x4E#8
  | .lsrAbsx _ => 0x5E#8
  | .rolAcc => 0x2A#8
  | .rolZp _ => 0x26#8
  | .rolZpx _ => 0x36#8
  | .rolAbs _ => 0x2E#8
  | .rolAbsx _ => 0x3E#8
  | .rorAcc => 0x6A#8
  | .rorZp _ => 0x66#8
  | .rorZpx _ => 0x76#8
  | .rorAbs _ => 0x6E#8
  | .rorAbsx _ => 0x7E#8
  | .bpl _ => 0x10#8
  | .bmi _ => 0x30#8
  | .bvc _ => 0x50#8
  | .bvs _ => 0x70#8
  | .bcc _ => 0x90#8
  | .bcs _ => 0xB0#8
  | .bne _ => 0xD0#8
  | .beq _ => 0xF0#8
  | .clc => 0x18#8
  | .sec => 0x38#8
  | .cli => 0x58#8
  | .sei => 0x78#8
  | .clv => 0xB8#8
  | .cld => 0xD8#8
  | .sed => 0xF8#8

/-- An operand word in the instruction stream, low byte first (R40). -/
def wordBytes (w : Addr) : List Byte := [loByte w, hiByte w]

/-- The operand bytes of a memory form (R56). -/
def MemOperand.bytes : MemOperand → List Byte
  | .zp z => [z]
  | .zpx z => [z]
  | .zpy z => [z]
  | .abs w => wordBytes w
  | .absx w => wordBytes w
  | .absy w => wordBytes w
  | .indx z => [z]
  | .indy z => [z]

/-- The operand bytes of an instruction (R56). -/
def Operand.bytes : Operand → List Byte
  | .implied => []
  | .accumulator => []
  | .immediate v => [v]
  | .memory m => m.bytes
  | .indirect p => wordBytes p
  | .relative d => [d]

/-- The bytes of an instruction, the first at the lowest address. -/
def encode (i : Instr) : List Byte := i.opcode :: i.operand.bytes

/-- The length of an instruction from its addressing mode (R57). -/
def modeLength : Mode → Nat
  | .imp | .acc => 1
  | .imm | .zp | .zpx | .zpy | .indx | .indy | .rel => 2
  | .abs | .absx | .absy | .ind => 3

def Instr.length (i : Instr) : Nat := modeLength i.mode

/-- Three bytes, the longest instruction, of a number whose bits are numbered as spec/opcode_table.json numbers them: bits 7..0
the first byte; bits from `nbits` on are 0. -/
def tableWordBytes (nbits w : Nat) : List Byte :=
  let bits := w % 2 ^ nbits
  [BitVec.ofNat 8 bits, BitVec.ofNat 8 (bits / 256), BitVec.ofNat 8 (bits / 65536)]

/-- The instruction the decoder reads from a table word. -/
def decodeTableWord (nbits w : Nat) : Option Instr :=
  match decode (tableWordBytes nbits w) with
  | .instr i _ => some i
  | .rejected _ => none

end Sys2Proof
end

