-- ==== Sys2Proof/Machine/Fetch.lean ====
section
/-! DEFINITION. Fetching an instruction (30_encoding.md R58, R77): the opcode byte through `Fetch8`, the dispatch-table lookup, then the
operand bytes one at a time, and the cycle output from the table's entry (70_reset_and_hazards.md R190). -/

namespace Sys2Proof.Machine

/-- What the fetch of a step comes to, with the state it leaves. -/
inductive Fetched where
  /-- an instruction, PC past its bytes -/
  | legal (i : Instr) (s : State)
  /-- an opcode byte with no table entry and the address it was fetched from, PC past that one byte (60_exceptions.md R172) -/
  | illegal (op : Byte) (addr : Addr) (s : State)
deriving DecidableEq, Repr

/-- The operand bytes a form needs, fetched low byte first. -/
def fetchOperands : Form → State → Fetched
  | .f1 i, s => .legal i s
  | .f2 make, s =>
    let b := fetch8 s
    .legal (make b.1) b.2
  | .f3 make, s =>
    let lo := fetch8 s
    let hi := fetch8 lo.2
    .legal (make (wordOf hi.1 lo.1)) hi.2

/-- The fetch of a step (R58). An illegal opcode fetches its one byte only and leaves the cycle output without a value
(60_exceptions.md R172). -/
def fetchInstr (s : State) : Fetched :=
  let op := fetch8 (clearOutputs s)
  match lookupOpcode op.1 with
  | none => .illegal op.1 s.pc op.2
  | some row => fetchOperands row.form (op.2.setCycles (some row.cycles))

end Sys2Proof.Machine
end

