-- ==== Sys2Proof/Machine/Step.lean ====
section
/-! DEFINITION. One step (00_scope.md R8, 30_encoding.md R58): fetch, then either the instruction's handler or the illegal-opcode
report (log 6). -/

namespace Sys2Proof.Machine

/-- One fetch-decode-execute. -/
def step (s : State) : Host.Outcome State Fault Refusal :=
  match fetchInstr s with
  | .legal i s' => exec i s'
  | .illegal op addr s' => .next (reportIllegal op addr s')

/-- The state with an instruction's bits, numbered as spec/opcode_table.json numbers them, stored at PC (log 7). -/
def State.withFetchWord (s : State) (nbits w : Nat) : State :=
  s.setMem (s.mem.writeBytes s.pc (tableWordBytes nbits w))

end Sys2Proof.Machine
end

