-- ==== Sys2Proof/Machine/HostPort.lean ====
section
/-! DEFINITION. What the host can do to the core between steps: the register access port (60_exceptions.md R180) and the reset input
(70_reset_and_hazards.md R186). -/

namespace Sys2Proof.Machine

/-- The six locations of the register access port (R180). -/
inductive PortReg where
  | a | x | y | sp | sr | pc
deriving DecidableEq, Repr

/-- The number a location's read returns (R180). A read changes nothing. -/
def portRead (r : PortReg) (s : State) : Nat :=
  match r with
  | .a => s.a.toNat
  | .x => s.x.toNat
  | .y => s.y.toNat
  | .sp => s.sp.toNat
  | .sr => s.sr.toNat
  | .pc => s.pc.toNat

/-- A write of a location (R180): a value wider than the register is reduced to its width, and nothing else changes. -/
def portWrite (r : PortReg) (v : Nat) (s : State) : State :=
  match r with
  | .a => s.setA (BitVec.ofNat 8 v)
  | .x => s.setX (BitVec.ofNat 8 v)
  | .y => s.setY (BitVec.ofNat 8 v)
  | .sp => s.setSp (BitVec.ofNat 8 v)
  | .sr => s.setSr (BitVec.ofNat 8 v)
  | .pc => s.setPc (BitVec.ofNat 16 v)

/-- The reset input (R186): the registers at their reset values whatever they were before, memory untouched, no access made. -/
def State.assertReset (s : State) : State := State.resetOver s.mem

end Sys2Proof.Machine
end

