-- ==== Sys2Proof/Safety.lean ====
section
/-! DEFINITION. What claims call a safe run. The hardware has no fault and no halt (00_scope.md R9), so a run is as many steps as the host
asks for; what a program can do wrong is to reach an illegal opcode, which is reported and survived (U5, log 6), and where a run ends
is the claim's own predicate (END_OF_RUN, D24, log 9). -/

namespace Sys2Proof.Machine

/-- The state invariant: memory is in its one canonical form. The widths of R31 hold by the registers' types. -/
def Inv (s : State) : Prop := s.mem.wf = true

/-- `Runs n s t`: n steps lead from s to t. -/
inductive Runs : Nat → State → State → Prop where
  | zero (s : State) : Runs 0 s s
  | succ {n : Nat} {s s' t : State} (h : step s = .next s') (r : Runs n s' t) : Runs (n + 1) s t

/-- No step of a run of up to n steps reports an illegal opcode. -/
def SafeRun (n : Nat) (s : State) : Prop :=
  ∀ k t, k < n → Runs (k + 1) s t → t.report = none

/-- A run from s reaches a state that meets the claim's predicate of ending (END_OF_RUN) within n steps. -/
def EndsWithin (ends : State → Bool) (n : Nat) (s : State) : Prop :=
  ∃ k t, k ≤ n ∧ Runs k s t ∧ ends t = true

end Sys2Proof.Machine
end

