-- ==== Sys2Proof/Certificates/Slice0/Obligations.lean ====
section
/-! DEFINITION. The statements for the provers, and the terms they are made in (namespace Claims). Where a statement rests on a choice of
the spec (a row D<n> of 92_eei_decisions.md), on general knowledge the spec marks as such, or on the model's own log, its
docstring says so. -/

namespace Sys2Proof.Claims

open Sys2Proof.Machine

/-- What an instruction leaves alone: every register but `regs` (SR is said by its flags), every flag of SR but `flags`, every byte of
memory but those at `cells`, and the step's cycle and report outputs. -/
structure Frame (regs : List PortReg) (flags : List Flag) (cells : List Addr) (s t : State) : Prop where
  keepsRegs : ∀ r, r ≠ .sr → r ∉ regs → portRead r t = portRead r s
  keepsFlags : ∀ f, f ∉ flags → getFlag f t.sr = getFlag f s.sr
  keepsMem : ∀ b, b ∉ cells → t.mem.read b = s.mem.read b
  keepsOutputs : t.cycles = s.cycles ∧ t.report = s.report

/-- Zero iff the value is 0 and Negative iff it is 128 or more (10_state.md R23). -/
def NzOf (v : Byte) (t : State) : Prop :=
  getFlag .z t.sr = decide (v.toNat = 0) ∧ getFlag .n t.sr = decide (128 ≤ v.toNat)

/-- The Carry flag as a number. -/
def carryIn (s : State) : Nat := (getFlag .c s.sr).toNat

/-- An 8-bit pattern read as a two's complement number lies in -128 to 127; a sum outside is an overflow (47_arith_compare.md R138). -/
def outOfSignedRange (v : Int) : Prop := v < -128 ∨ 127 < v

/-- The 105 byte values of 30_encoding.md R74. -/
def illegalOpcodes : List Byte :=
  [0x02, 0x03, 0x04, 0x07, 0x0B, 0x0C, 0x0F, 0x12, 0x13, 0x14, 0x17, 0x1A, 0x1B, 0x1C, 0x1F] ++
  [0x22, 0x23, 0x27, 0x2B, 0x2F, 0x32, 0x33, 0x34, 0x37, 0x3A, 0x3B, 0x3C, 0x3F, 0x42, 0x43] ++
  [0x44, 0x47, 0x4B, 0x4F, 0x52, 0x53, 0x54, 0x57, 0x5A, 0x5B, 0x5C, 0x5F, 0x62, 0x63, 0x64] ++
  [0x67, 0x6B, 0x6F, 0x72, 0x73, 0x74, 0x77, 0x7A, 0x7B, 0x7C, 0x7F, 0x80, 0x82, 0x83, 0x87] ++
  [0x89, 0x8B, 0x8F, 0x92, 0x93, 0x97, 0x9B, 0x9C, 0x9E, 0x9F, 0xA3, 0xA7, 0xAB, 0xAF, 0xB2] ++
  [0xB3, 0xB7, 0xBB, 0xBF, 0xC2, 0xC3, 0xC7, 0xCB, 0xCF, 0xD2, 0xD3, 0xD4, 0xD7, 0xDA, 0xDB] ++
  [0xDC, 0xDF, 0xE2, 0xE3, 0xE7, 0xEB, 0xEF, 0xF2, 0xF3, 0xF4, 0xF7, 0xFA, 0xFB, 0xFC, 0xFF]

/-- The read-modify-write instructions on memory or A. -/
def modifiers : List Mnemonic := [.inc, .dec, .asl, .lsr, .rol, .ror]

/-- The storing instructions. -/
def stores : List Mnemonic := [.sta, .stx, .sty]

/-- The instructions that consume an 8-bit operand value (30_encoding.md R69). -/
def operandReaders : List Mnemonic := [.lda, .ldx, .ldy, .and, .ora, .eor, .bit, .adc, .sbc, .cmp, .cpx, .cpy]

/-- The base cycle cost by mnemonic and addressing mode (70_reset_and_hazards.md R191); the last line is the branches and the Implied and
Accumulator instructions of cost 2. -/
def publishedCycles (n : Mnemonic) (o : Mode) : Nat :=
  if n ∈ operandReaders then
    if o = .imm then 2 else if o = .zp then 3 else if o = .indx then 6 else if o = .indy then 5 else 4
  else if n ∈ stores then
    if o = .zp then 3 else if o ∈ [.absx, .absy] then 5 else if o ∈ [.indx, .indy] then 6 else 4
  else if n ∈ modifiers then
    if o = .acc then 2 else if o = .zp then 5 else if o = .absx then 7 else 6
  else if n = .jmp then
    if o = .ind then 5 else 3
  else if n ∈ [.pha, .php] then 3
  else if n ∈ [.pla, .plp] then 4
  else if n ∈ [.rts, .rti, .jsr] then 6
  else if n = .brk then 7
  else 2

/-- An access by direction and address. -/
inductive Port where
  | r (a : Addr)
  | w (a : Addr)
deriving DecidableEq, Repr

def portOf : Access → Port
  | .read a _ => .r a
  | .write a _ => .w a

/-- The pointer reads of a memory form (95_test_vectors.md section 2.1). -/
def pointerPorts : MemOperand → State → List Port
  | .indx z, s => [.r (zext16 (z + s.x)), .r (zext16 (z + s.x + 1#8))]
  | .indy z, _ => [.r (zext16 z), .r (zext16 (z + 1#8))]
  | .zp _, _ | .zpx _, _ | .zpy _, _ | .abs _, _ | .absx _, _ | .absy _, _ => []

/-- The accesses of an instruction after its own bytes are fetched (95_test_vectors.md sections 2.1 and 2.2; decision D13). -/
def dataPorts (i : Instr) (s : State) : List Port :=
  match i.operand with
  | .memory m =>
    if i.mnemonic = .jmp then []
    else if i.mnemonic = .jsr then [.w (stackAddr s.sp), .w (stackAddr (s.sp - 1#8))]
    else if i.mnemonic ∈ stores then pointerPorts m s ++ [.w (effAddr m s).1]
    else if i.mnemonic ∈ modifiers then pointerPorts m s ++ [.r (effAddr m s).1, .w (effAddr m s).1]
    else pointerPorts m s ++ [.r (effAddr m s).1]
  | .indirect p => [.r p, .r (pointerHigh p)]
  | .implied =>
    if i.mnemonic ∈ [.pha, .php] then [.w (stackAddr s.sp)]
    else if i.mnemonic ∈ [.pla, .plp] then [.r (stackAddr (s.sp + 1#8))]
    else if i.mnemonic = .rts then [.r (stackAddr (s.sp + 1#8)), .r (stackAddr (s.sp + 2#8))]
    else if i.mnemonic = .rti then
      [.r (stackAddr (s.sp + 1#8)), .r (stackAddr (s.sp + 2#8)), .r (stackAddr (s.sp + 3#8))]
    else if i.mnemonic = .brk then
      [.w (stackAddr s.sp), .w (stackAddr (s.sp - 1#8)), .w (stackAddr (s.sp - 2#8)), .r 0xFFFE#16, .r 0xFFFF#16]
    else []
  | .accumulator | .immediate _ | .relative _ => []

/-- A list of accesses made on a plain memory: each read must answer what the memory holds at that moment (20_memory.md R39). -/
def replay : List Access → Memory → Option Memory
  | [], m => some m
  | .read a v :: rest, m => if m.read a = v then replay rest m else none
  | .write a v :: rest, m => replay rest (m.write a v)

/-- The three bytes at PC, enough for any instruction (30_encoding.md R57). -/
def bytesAtPc (s : State) : List Byte := [s.mem.read s.pc, s.mem.read (s.pc + 1#16), s.mem.read (s.pc + 2#16)]

/-- The reads of the first `n` bytes at PC, in ascending order modulo 65536 (30_encoding.md R77). -/
def fetchReads (n : Nat) (s : State) : List Access :=
  (List.range n).map (fun k => .read (s.pc + BitVec.ofNat 16 k) (s.mem.read (s.pc + BitVec.ofNat 16 k)))

/-- The state in which the handler of `i` runs: PC past its bytes, the outputs of the last step gone, the fetch reads made, the cycle
output from the table. -/
def afterFetch (i : Instr) (cycles : Nat) (s : State) : State :=
  { s with pc := s.pc + BitVec.ofNat 16 i.length, cycles := some cycles, report := none, accesses := fetchReads i.length s }

/-- The condition column of 49_branch_flag.md's branch table: a flag and the value it must have. -/
def branchTest : Mnemonic → Option (Flag × Bool)
  | .bpl => some (.n, false)
  | .bmi => some (.n, true)
  | .bvc => some (.v, false)
  | .bvs => some (.v, true)
  | .bcc => some (.c, false)
  | .bcs => some (.c, true)
  | .bne => some (.z, false)
  | .beq => some (.z, true)
  | _ => none

/-- The effect column of 49_branch_flag.md's flag table. -/
def flagEffect : Mnemonic → Option (Flag × Bool)
  | .clc => some (.c, false)
  | .sec => some (.c, true)
  | .cli => some (.i, false)
  | .sei => some (.i, true)
  | .clv => some (.v, false)
  | .cld => some (.d, false)
  | .sed => some (.d, true)
  | _ => none

/-- The byte a shift or rotate works on: A, or the byte at the effective address (48_shift_rotate.md R144). -/
def placeValue : Place → State → Byte
  | .acc, s => s.a
  | .mem m, s => s.mem.read (effAddr m s).1

/-- The byte at the place after the instruction: A, or the byte at the effective address of the state before. -/
def placeValueAfter : Place → State → State → Byte
  | .acc, _, t => t.a
  | .mem m, s, t => t.mem.read (effAddr m s).1

/-- The registers and cells a shift or rotate writes. -/
def placeRegs : Place → List PortReg
  | .acc => [.a]
  | .mem _ => []

def placeCells : Place → State → List Addr
  | .acc, _ => []
  | .mem m, s => [(effAddr m s).1]

/-- Mnemonics that leave C as it was, apart from PLP and RTI, are those not in this list (10_state.md R24). -/
def carryWriters : List Mnemonic :=
  [.adc, .sbc, .cmp, .cpx, .cpy, .asl, .rol, .lsr, .ror, .clc, .sec, .plp, .rti]

/-- The writers of Z (10_state.md R25); the same mnemonics write N (R30). -/
def zeroWriters : List Mnemonic :=
  [.lda, .ldx, .ldy, .tax, .txa, .tay, .tya, .tsx, .pla, .and, .ora, .eor, .inc, .dec, .inx, .dex, .iny, .dey, .adc, .sbc, .cmp,
    .cpx, .cpy, .asl, .lsr, .rol, .ror, .bit, .plp, .rti]

/-- The writers of A (10_state.md R12), shifts counted in Accumulator mode only. -/
def writesA (i : Instr) : Bool :=
  decide (i.mnemonic ∈ [.lda, .txa, .tya, .pla, .and, .ora, .eor, .adc, .sbc]) || decide (i.mode = .acc)

/-- The instructions that write memory (20_memory.md R43). -/
def writesMemory (i : Instr) : Bool :=
  decide (i.mnemonic ∈ [.sta, .stx, .sty, .inc, .dec, .pha, .php, .jsr, .brk]) ||
    (decide (i.mnemonic ∈ [.asl, .lsr, .rol, .ror]) && decide (i.mode ≠ .acc))

/-- The instructions that leave PC elsewhere than past their own bytes (10_state.md R18). -/
def movesPc (i : Instr) : Bool :=
  decide (i.mnemonic ∈ [.jmp, .jsr, .rts, .brk, .rti, .bpl, .bmi, .bvc, .bvs, .bcc, .bcs, .bne, .beq])

/-- One bit of SR turned over. -/
def flipFlag (f : Flag) (s : State) : State := s.setSr (s.sr ^^^ flagMask f)

/-- Where the step from `s` stores SR: PHP at 0x0100 + SP, BRK two slots below, no other opcode (10_state.md R22). -/
def storedSrAt (s : State) : Option Addr :=
  if s.mem.read s.pc = Instr.php.opcode then some (stackAddr s.sp)
  else if s.mem.read s.pc = Instr.brk.opcode then some (stackAddr (s.sp - 2#8))
  else none

/-- The result whose `SetNZ` an instruction takes, from the states before and after: the register it leaves it in, the byte of memory it
leaves it in, or a compare's difference, which it leaves nowhere (10_state.md R25). -/
def nzResult (i : Instr) (s t : State) : Option Byte :=
  if i.mnemonic ∈ [.lda, .txa, .tya, .pla, .and, .ora, .eor, .adc, .sbc] then some t.a
  else if i.mnemonic ∈ [.ldx, .tax, .tsx, .inx, .dex] then some t.x
  else if i.mnemonic ∈ [.ldy, .tay, .iny, .dey] then some t.y
  else if i.mnemonic ∈ modifiers then i.operand.place?.map (fun p => placeValueAfter p s t)
  else if i.mnemonic = .cmp then i.operand.source?.map (fun src => s.a - (readSource src s).1)
  else if i.mnemonic = .cpx then i.operand.source?.map (fun src => s.x - (readSource src s).1)
  else if i.mnemonic = .cpy then i.operand.source?.map (fun src => s.y - (readSource src s).1)
  else none

/-- `n` times the same instruction on a state, where each answers a next state. -/
def repeatExec (i : Instr) : Nat → State → Option State
  | 0, s => some s
  | n + 1, s =>
    match exec i s with
    | .next t => repeatExec i n t
    | .fault _ => none
    | .refused _ => none

end Sys2Proof.Claims

open Sys2Proof Sys2Proof.Machine Sys2Proof.Claims

/-! ### Encoding -/

/-- Decoding the encoding of any instruction, whatever bytes follow it, gives it back with those bytes left (30_encoding.md R56, R58,
R72; the opcode byte values are general knowledge of the spec, D3). -/
def Obligations.EncodedInstructionsDecodeBack : Prop :=
  ∀ (i : Instr) (rest : List Byte), decode (encode i ++ rest) = .instr i rest

/-- Bytes that decode are the encoding of what they decode to: no bit of an instruction is ignored (30_encoding.md R56, R58, R76). -/
def Obligations.DecodedBytesAreTheEncoding : Prop :=
  ∀ (bytes rest : List Byte) (i : Instr), decode bytes = .instr i rest → bytes = encode i ++ rest

/-- The byte values without an entry in the dispatch table are the 105 of R74, and the table has 151 entries (R72, R74; the
assignment is general knowledge of the spec, D3). -/
def Obligations.IllegalOpcodesAreTheHundredAndFive : Prop :=
  (∀ op : Byte, lookupOpcode op = none ↔ op ∈ illegalOpcodes) ∧ illegalOpcodes.length = 105 ∧ opcodeTable.length = 151

/-- The length is known from the opcode byte alone and is 1, 2 or 3 (30_encoding.md R57, marked derived there). -/
def Obligations.LengthIsKnownFromTheOpcode : Prop :=
  ∀ (op : Byte) (row : Row), lookupOpcode op = some row →
    (1 ≤ row.form.length ∧ row.form.length ≤ 3) ∧
    ∀ (tail rest : List Byte) (i : Instr), decode (op :: tail) = .instr i rest →
      i.length = row.form.length ∧ (op :: tail).length = row.form.length + rest.length

/-- Words of each family, written out from the spec's opcode tables, decode to what they stand for. -/
def Obligations.WordsOfEachFamilyDecode : Prop :=
  decode [0b10111101, 0x34, 0x12] = .instr (.ldaAbsx 0x1234) [] ∧
  decode [0b10010001, 0x30] = .instr (.staIndy 0x30) [] ∧
  decode [0b10111010] = .instr .tsx [] ∧
  decode [0b00001000] = .instr .php [] ∧
  decode [0b01000001, 0x20] = .instr (.eorIndx 0x20) [] ∧
  decode [0b11011110, 0x00, 0x02] = .instr (.decAbsx 0x0200) [] ∧
  decode [0b01101100, 0xFF, 0x02] = .instr (.jmpInd 0x02FF) [] ∧
  decode [0b00000000, 0xEA] = .instr .brk [0xEA] ∧
  decode [0b11101001, 0x80] = .instr (.sbcImm 0x80) [] ∧
  decode [0b01110110, 0x50] = .instr (.rorZpx 0x50) [] ∧
  decode [0b11010000, 0xFE] = .instr (.bne 0xFE) [] ∧
  decode [0b10000000] = .rejected (.illegalOpcode 0x80)

/-- The cost of each instruction's dispatch-table entry is the published base value (70_reset_and_hazards.md R191, general knowledge of
the spec but for INX and LDA Immediate, D4). -/
def Obligations.CycleTableIsThePublishedOne : Prop :=
  ∀ i : Instr, ∃ row, lookupOpcode i.opcode = some row ∧ row.cycles = publishedCycles i.mnemonic i.mode

/-! ### The step -/

/-- When the bytes at PC decode to an instruction, the step is its handler run at the state whose PC is past its bytes, with the fetch
reads made and the cycle output of the table's entry (30_encoding.md R58, 10_state.md R17). -/
def Obligations.StepRunsTheDecodedInstruction : Prop :=
  ∀ (s : State) (i : Instr) (rest : List Byte) (row : Row), decode (bytesAtPc s) = .instr i rest →
    lookupOpcode (s.mem.read s.pc) = some row → step s = exec i (afterFetch i row.cycles s)

/-- A step on an opcode with no table entry reports the opcode and the address it was fetched from, advances PC by the one byte fetched
and changes no register, flag or byte of memory (30_encoding.md R75). -/
def Obligations.IllegalOpcodeIsAReportedOneByteNoOp : Prop :=
  ∀ s : State, lookupOpcode (s.mem.read s.pc) = none →
    ∃ t, step s = .next t ∧ t.report = some ⟨s.mem.read s.pc, s.pc⟩ ∧ t.pc.toNat = (s.pc.toNat + 1) % 65536 ∧
      t.a = s.a ∧ t.x = s.x ∧ t.y = s.y ∧ t.sp = s.sp ∧ t.sr = s.sr ∧ t.mem = s.mem

/-- Every step answers a next state, after at least 1 and at most 6 memory accesses, the first of them the opcode fetch at PC
(00_scope.md R9, where the bounds are marked derived; 20_memory.md R44). -/
def Obligations.StepAlwaysCompletesWithinSixAccesses : Prop :=
  ∀ s : State, ∃ t, step s = .next t ∧ 1 ≤ t.accesses.length ∧ t.accesses.length ≤ 6 ∧
    t.accesses.head? = some (.read s.pc (s.mem.read s.pc))

/-- Every instruction completes, and the accesses it makes after its own bytes are fetched are exactly those of 95_test_vectors.md
section 2, in that order (20_memory.md R43 to R45; the sequence is the spec's decision D13). -/
def Obligations.EveryInstructionMakesItsListedAccesses : Prop :=
  ∀ (i : Instr) (s : State), ∃ t, exec i s = .next t ∧
    t.accesses.map portOf = s.accesses.map portOf ++ dataPorts i s

/-- The accesses of a step account for memory: made in order on the memory before the step, they answer every read as listed and leave the memory
after it, so memory changes by the listed writes alone; and on any other memory that agrees at the listed read addresses the step has the
same registers, outputs and accesses, so no byte but those listed as read has an effect (20_memory.md R39, R44, R51; plain memory is
log 1). -/
def Obligations.StepReplaysOnItsMemory : Prop :=
  (∀ s t : State, step s = .next t → replay t.accesses s.mem = some t.mem) ∧
  ∀ (s t : State) (m : Memory), step s = .next t → (∀ a v, Access.read a v ∈ t.accesses → m.read a = s.mem.read a) →
    ∃ t', step (s.setMem m) = .next t' ∧ t'.setMem t.mem = t

/-- The cycle output of a step is the cost of the opcode's entry, with no report; without an entry it has no value, and there is one report
(70_reset_and_hazards.md R190, 60_exceptions.md R171; no value on an illegal opcode is the spec's decision D5). -/
def Obligations.StepOutputsAreCycleCostOrReport : Prop :=
  ∀ s t : State, step s = .next t →
    (∀ row, lookupOpcode (s.mem.read s.pc) = some row →
      t.cycles = some row.cycles ∧ 2 ≤ row.cycles ∧ row.cycles ≤ 7 ∧ t.report = none) ∧
    (lookupOpcode (s.mem.read s.pc) = none → t.cycles = none ∧ t.report = some ⟨s.mem.read s.pc, s.pc⟩)

/-- A step starts from the six registers and memory alone: the outputs of the last step are not read (10_state.md R34; holding them in State
is log 3). -/
def Obligations.OutputsOfTheLastStepAreNotRead : Prop :=
  ∀ (s : State) (c : Option Nat) (r : Option IllegalReport) (l : List Access),
    step (((s.setCycles c).setReport r).setAccesses l) = step s

/-- Interrupt-Disable, Decimal, Break and bit 5 change nothing of what a step does: with one of them turned over, a step leaves the same A, X,
Y, SP, PC, outputs, access addresses, other bits of SR, and every byte of memory but the one that PHP or BRK stores SR in, which differs
in that bit at most (10_state.md R26, R27, R28, R21, R22; R26 and R27 are marked derived). -/
def Obligations.NothingTestsInterruptDecimalBreakOrBitFive : Prop :=
  ∀ (f : Flag) (s t t' : State), f ∈ [Flag.i, Flag.d, Flag.b, Flag.u] → step s = .next t → step (flipFlag f s) = .next t' →
    t'.a = t.a ∧ t'.x = t.x ∧ t'.y = t.y ∧ t'.sp = t.sp ∧ t'.pc = t.pc ∧ t'.cycles = t.cycles ∧ t'.report = t.report ∧
    t'.accesses.map portOf = t.accesses.map portOf ∧
    (∀ g, g ≠ f → getFlag g t'.sr = getFlag g t.sr) ∧
    (∀ a : Addr, storedSrAt s ≠ some a → t'.mem.read a = t.mem.read a) ∧
    (Inv s → ∀ (a : Addr) (g : Flag), g ≠ f → getFlag g (t'.mem.read a) = getFlag g (t.mem.read a))

/-- Each general register and SP is written only by the instructions the spec lists for it (10_state.md R12, marked derived, and R13). -/
def Obligations.RegistersAreWrittenOnlyByTheirListedInstructions : Prop :=
  ∀ (i : Instr) (s t : State), exec i s = .next t →
    (writesA i = false → t.a = s.a) ∧
    (i.mnemonic ∉ [.ldx, .tax, .tsx, .inx, .dex] → t.x = s.x) ∧
    (i.mnemonic ∉ [.ldy, .tay, .iny, .dey] → t.y = s.y) ∧
    (i.mnemonic ∉ [.pha, .php, .pla, .plp, .jsr, .rts, .brk, .rti, .txs] → t.sp = s.sp)

/-- Each bit of SR is written only by the instructions the spec lists for it (10_state.md R21, R24 to R30; the lists hold general-knowledge
instructions). -/
def Obligations.FlagsAreWrittenOnlyByTheirListedInstructions : Prop :=
  ∀ (i : Instr) (s t : State), exec i s = .next t →
    (i.mnemonic ∉ carryWriters → getFlag .c t.sr = getFlag .c s.sr) ∧
    (i.mnemonic ∉ zeroWriters → getFlag .z t.sr = getFlag .z s.sr ∧ getFlag .n t.sr = getFlag .n s.sr) ∧
    (i.mnemonic ∉ [.brk, .sei, .cli, .plp, .rti] → getFlag .i t.sr = getFlag .i s.sr) ∧
    (i.mnemonic ∉ [.sed, .cld, .plp, .rti] → getFlag .d t.sr = getFlag .d s.sr) ∧
    (i.mnemonic ∉ [.plp, .rti] → getFlag .b t.sr = getFlag .b s.sr ∧ getFlag .u t.sr = getFlag .u s.sr) ∧
    (i.mnemonic ∉ [.adc, .sbc, .bit, .clv, .plp, .rti] → getFlag .v t.sr = getFlag .v s.sr)

/-- Memory is written only by the instructions whose row of 20_memory.md R43 lists a write, and PC is left past the instruction by all but those
10_state.md R18 lists (both marked derived). -/
def Obligations.MemoryAndPcAreMovedOnlyByTheirListedInstructions : Prop :=
  ∀ (i : Instr) (s t : State), exec i s = .next t →
    (writesMemory i = false → ∀ b, t.mem.read b = s.mem.read b) ∧ (movesPc i = false → t.pc = s.pc)

/-- Every step keeps memory in its canonical form (the model's own invariant, log 2). -/
def Obligations.StepKeepsMemoryCanonical : Prop :=
  ∀ s t : State, Inv s → step s = .next t → Inv t

/-! ### Reset and the host -/

/-- Reset, over any memory and from any state: the six registers' values, memory untouched, no output, and the first fetch at 0x0000
(10_state.md R35, 70_reset_and_hazards.md R186, R187; adopting the values is the spec's decision D17, the outputs' absence D1). -/
def Obligations.ResetGivesTheRegistersTheirValues : Prop :=
  (∀ s : State, s.assertReset = State.resetOver s.mem) ∧ State.reset = State.resetOver [] ∧
  ∀ m : Memory, (State.resetOver m).a = 0xFF#8 ∧ (State.resetOver m).x = 0xFF#8 ∧ (State.resetOver m).y = 0xFF#8 ∧
    (State.resetOver m).sp = 0xFF#8 ∧ (∀ f, getFlag f (State.resetOver m).sr = true) ∧ (State.resetOver m).pc = 0x0000#16 ∧
    (State.resetOver m).mem = m ∧ (State.resetOver m).cycles = none ∧ (State.resetOver m).report = none ∧
    ∃ t, step (State.resetOver m) = .next t ∧ t.accesses.head? = some (.read 0x0000#16 (m.read 0x0000#16))

/-- The state after reset meets the invariant, over any canonical memory (log 2). -/
def Obligations.ResetMeetsTheInvariant : Prop :=
  Inv State.reset ∧ ∀ m : Memory, m.wf = true → Inv (State.resetOver m)

/-- A write through the register access port reads back reduced to the register's width, and changes no other register, no byte of memory and
no output (60_exceptions.md R180; only between steps is the spec's decision D19). -/
def Obligations.HostPortWritesOneRegister : Prop :=
  ∀ (r : PortReg) (v : Nat) (s : State),
    portRead r (portWrite r v s) = v % (if r = .pc then 65536 else 256) ∧
    (∀ q, q ≠ r → portRead q (portWrite r v s) = portRead q s) ∧
    (portWrite r v s).mem = s.mem ∧ (portWrite r v s).cycles = s.cycles ∧ (portWrite r v s).report = s.report ∧
    (portWrite r v s).accesses = s.accesses

/-! ### Status register, stack primitives, addressing modes -/

/-- The bits of SR by position, all storage: writing one gives it the value and leaves the other seven (10_state.md R20). -/
def Obligations.StatusRegisterHasEightStoredBits : Prop :=
  (∀ sr : Byte, getFlag .c sr = sr.getLsbD 0 ∧ getFlag .z sr = sr.getLsbD 1 ∧ getFlag .i sr = sr.getLsbD 2 ∧
    getFlag .d sr = sr.getLsbD 3 ∧ getFlag .b sr = sr.getLsbD 4 ∧ getFlag .u sr = sr.getLsbD 5 ∧
    getFlag .v sr = sr.getLsbD 6 ∧ getFlag .n sr = sr.getLsbD 7) ∧
  ∀ (f g : Flag) (v : Bool) (sr : Byte), getFlag g (putFlag f v sr) = if g = f then v else getFlag g sr

/-- SetNZ (10_state.md R23): Zero iff the value is 0, Negative iff it is 128 or more, the other of the pair cleared, never both set, no other flag
touched; and it is the only way an instruction computes the two from a result: but for BIT, PLP and RTI, which take them from elsewhere
(R25, R30), an instruction that has a result leaves both as `SetNZ` of that result, and one that has none leaves both alone. -/
def Obligations.SetNzWritesZeroAndNegativeOnly : Prop :=
  (∀ v sr : Byte, getFlag .z (setNZ v sr) = decide (v.toNat = 0) ∧ getFlag .n (setNZ v sr) = decide (128 ≤ v.toNat) ∧
    ¬(getFlag .z (setNZ v sr) = true ∧ getFlag .n (setNZ v sr) = true) ∧
    ∀ f, f ≠ .z → f ≠ .n → getFlag f (setNZ v sr) = getFlag f sr) ∧
  ∀ (i : Instr) (s t : State), i.mnemonic ∉ [.bit, .plp, .rti] → exec i s = .next t →
    (∀ v, nzResult i s t = some v → Inv s → NzOf v t) ∧
    (nzResult i s t = none → getFlag .z t.sr = getFlag .z s.sr ∧ getFlag .n t.sr = getFlag .n s.sr)

/-- Push (10_state.md R15): one write at 0x0100 + SP with the old SP, then SP less 1 modulo 256, and nothing else. -/
def Obligations.PushWritesThenDecrements : Prop :=
  ∀ (v : Byte) (s : State),
    (Inv s → ∀ a : Addr, a.toNat = 0x100 + s.sp.toNat → (push8 v s).mem.read a = v) ∧
    (push8 v s).sp.toNat = (s.sp.toNat + 255) % 256 ∧
    (push8 v s).accesses = s.accesses ++ [.write (BitVec.ofNat 16 (0x100 + s.sp.toNat)) v] ∧
    Frame [.sp] [] [BitVec.ofNat 16 (0x100 + s.sp.toNat)] s (push8 v s)

/-- Pop (10_state.md R16): SP plus 1 modulo 256, then one read at 0x0100 + SP with the new SP, which is the value; memory unchanged. -/
def Obligations.PopIncrementsThenReads : Prop :=
  ∀ s : State,
    (pop8 s).2.sp.toNat = (s.sp.toNat + 1) % 256 ∧
    (pop8 s).1 = s.mem.read (BitVec.ofNat 16 (0x100 + (s.sp.toNat + 1) % 256)) ∧
    (pop8 s).2.accesses = s.accesses ++ [.read (BitVec.ofNat 16 (0x100 + (s.sp.toNat + 1) % 256)) (pop8 s).1] ∧
    Frame [.sp] [] [] s (pop8 s).2

/-- Every addressing mode: the effective address of each memory form as a number, the operand value, the target of Indirect and of Relative,
that Accumulator takes A as operand and destination with no access, that Implied and Accumulator have no operand byte, and that forming an
address or an operand changes no register or memory (30_encoding.md R60 to R71; the wrap of the (Indirect),Y pointer is the spec's decision
D12, that of the Indirect pointer D11, the base of Relative D21). -/
def Obligations.EffectiveAddressesAreTheSpecified : Prop :=
  ∀ (z : Byte) (w : Addr) (s : State),
    (effAddr (.zp z) s).1.toNat = z.toNat ∧
    (effAddr (.zpx z) s).1.toNat = (z.toNat + s.x.toNat) % 256 ∧
    (effAddr (.zpy z) s).1.toNat = (z.toNat + s.y.toNat) % 256 ∧
    (effAddr (.abs w) s).1.toNat = w.toNat ∧
    (effAddr (.absx w) s).1.toNat = (w.toNat + s.x.toNat) % 65536 ∧
    (effAddr (.absy w) s).1.toNat = (w.toNat + s.y.toNat) % 65536 ∧
    (effAddr (.indx z) s).1.toNat =
      256 * (s.mem.read (BitVec.ofNat 16 ((z.toNat + s.x.toNat + 1) % 256))).toNat +
        (s.mem.read (BitVec.ofNat 16 ((z.toNat + s.x.toNat) % 256))).toNat ∧
    (effAddr (.indy z) s).1.toNat =
      (256 * (s.mem.read (BitVec.ofNat 16 ((z.toNat + 1) % 256))).toNat +
        (s.mem.read (BitVec.ofNat 16 z.toNat)).toNat + s.y.toNat) % 65536 ∧
    (readSource (.imm z) s).1 = z ∧
    (∀ m : MemOperand, (readSource (.mem m) s).1 = s.mem.read (effAddr m s).1 ∧
      Frame [] [] [] s (effAddr m s).2 ∧ Frame [] [] [] s (readSource (.mem m) s).2) ∧
    (indirectTarget w s).1.toNat =
      256 * (s.mem.read (BitVec.ofNat 16 (256 * (w.toNat / 256) + (w.toNat + 1) % 256))).toNat + (s.mem.read w).toNat ∧
    Frame [] [] [] s (indirectTarget w s).2 ∧
    ((branchTarget z s).toNat : Int) = ((s.pc.toNat : Int) + z.toInt) % 65536 ∧
    (∀ f : Byte → Bool → ShiftResult, (shiftPlace f .acc s).a = (f s.a (getFlag .c s.sr)).value ∧
      (shiftPlace f .acc s).accesses = s.accesses ∧ Frame [.a] [.c, .z, .n] [] s (shiftPlace f .acc s)) ∧
    ∀ i : Instr, i.operand = .implied ∨ i.operand = .accumulator → encode i = [i.opcode]

/-! ### Instructions: each completes with the effect and the frame the spec gives -/

/-- LDA, LDX, LDY in every mode: the operand in the register, Z and N from it, nothing else (40_load_store.md R81 to R83, R87). -/
def Obligations.LoadsPutTheOperandInTheRegister : Prop :=
  ∀ (i : Instr) (src : Source) (s : State), i.operand.source? = some src →
    (i.mnemonic = .lda → ∃ t, exec i s = .next t ∧ t.a = (readSource src s).1 ∧ NzOf t.a t ∧ Frame [.a] [.z, .n] [] s t) ∧
    (i.mnemonic = .ldx → ∃ t, exec i s = .next t ∧ t.x = (readSource src s).1 ∧ NzOf t.x t ∧ Frame [.x] [.z, .n] [] s t) ∧
    (i.mnemonic = .ldy → ∃ t, exec i s = .next t ∧ t.y = (readSource src s).1 ∧ NzOf t.y t ∧ Frame [.y] [.z, .n] [] s t)

/-- STA, STX, STY in every mode: the register's byte at the effective address, no flag and no other byte touched (40_load_store.md R84 to R86, R87). -/
def Obligations.StoresPutTheRegisterInMemory : Prop :=
  ∀ (i : Instr) (m : MemOperand) (s : State), i.operand.memory? = some m →
    (i.mnemonic = .sta → ∃ t, exec i s = .next t ∧ (Inv s → t.mem.read (effAddr m s).1 = s.a) ∧
      Frame [] [] [(effAddr m s).1] s t) ∧
    (i.mnemonic = .stx → ∃ t, exec i s = .next t ∧ (Inv s → t.mem.read (effAddr m s).1 = s.x) ∧
      Frame [] [] [(effAddr m s).1] s t) ∧
    (i.mnemonic = .sty → ∃ t, exec i s = .next t ∧ (Inv s → t.mem.read (effAddr m s).1 = s.y) ∧
      Frame [] [] [(effAddr m s).1] s t)

/-- TAX, TXA, TAY, TYA, TSX, TXS: the source copied, Z and N from it except for TXS, which touches no flag (41_transfer.md R90 to R95). -/
def Obligations.TransfersCopyOneRegister : Prop :=
  ∀ s : State,
    (∃ t, exec .tax s = .next t ∧ t.x = s.a ∧ NzOf s.a t ∧ Frame [.x] [.z, .n] [] s t) ∧
    (∃ t, exec .txa s = .next t ∧ t.a = s.x ∧ NzOf s.x t ∧ Frame [.a] [.z, .n] [] s t) ∧
    (∃ t, exec .tay s = .next t ∧ t.y = s.a ∧ NzOf s.a t ∧ Frame [.y] [.z, .n] [] s t) ∧
    (∃ t, exec .tya s = .next t ∧ t.a = s.y ∧ NzOf s.y t ∧ Frame [.a] [.z, .n] [] s t) ∧
    (∃ t, exec .tsx s = .next t ∧ t.x = s.sp ∧ NzOf s.sp t ∧ Frame [.x] [.z, .n] [] s t) ∧
    (∃ t, exec .txs s = .next t ∧ t.sp = s.x ∧ Frame [.sp] [] [] s t)

/-- PHA and PHP store A, or SR as it stands, at 0x0100 + SP and take SP one down; PLA and PLP take SP one up and load A with Z and N, or all eight bits
of SR, from 0x0100 + SP (42_stack.md R97 to R100). -/
def Obligations.StackInstructionsMoveOneByte : Prop :=
  ∀ s : State,
    (∃ t, exec .pha s = .next t ∧ (Inv s → t.mem.read (stackAddr s.sp) = s.a) ∧ t.sp = s.sp - 1#8 ∧
      Frame [.sp] [] [stackAddr s.sp] s t) ∧
    (∃ t, exec .php s = .next t ∧ (Inv s → t.mem.read (stackAddr s.sp) = s.sr) ∧ t.sp = s.sp - 1#8 ∧
      Frame [.sp] [] [stackAddr s.sp] s t) ∧
    (∃ t, exec .pla s = .next t ∧ t.a = s.mem.read (stackAddr (s.sp + 1#8)) ∧ t.sp = s.sp + 1#8 ∧ NzOf t.a t ∧
      Frame [.a, .sp] [.z, .n] [] s t) ∧
    (∃ t, exec .plp s = .next t ∧ t.sr = s.mem.read (stackAddr (s.sp + 1#8)) ∧ t.sp = s.sp + 1#8 ∧
      Frame [.sp] [.c, .z, .i, .d, .b, .u, .v, .n] [] s t)

/-- AND, ORA, EOR in every mode: each bit of A combined with the operand's, Z and N from the result (43_logical.md R103 to R105). -/
def Obligations.LogicalInstructionsCombineBitwise : Prop :=
  ∀ (i : Instr) (src : Source) (s : State), i.operand.source? = some src →
    (i.mnemonic = .and → ∃ t, exec i s = .next t ∧
      (∀ k < 8, t.a.getLsbD k = (s.a.getLsbD k && (readSource src s).1.getLsbD k)) ∧ NzOf t.a t ∧ Frame [.a] [.z, .n] [] s t) ∧
    (i.mnemonic = .ora → ∃ t, exec i s = .next t ∧
      (∀ k < 8, t.a.getLsbD k = (s.a.getLsbD k || (readSource src s).1.getLsbD k)) ∧ NzOf t.a t ∧ Frame [.a] [.z, .n] [] s t) ∧
    (i.mnemonic = .eor → ∃ t, exec i s = .next t ∧
      (∀ k < 8, t.a.getLsbD k = (s.a.getLsbD k ^^ (readSource src s).1.getLsbD k)) ∧ NzOf t.a t ∧ Frame [.a] [.z, .n] [] s t)

/-- BIT in both modes: Z from A and the operand, V and N from the operand's bits 6 and 7, and A unchanged (43_logical.md R106). -/
def Obligations.BitTestsWithoutChangingA : Prop :=
  ∀ (i : Instr) (m : MemOperand) (s : State), i.mnemonic = .bit → i.operand.memory? = some m →
    ∃ t, exec i s = .next t ∧
      (getFlag .z t.sr = true ↔ ∀ k < 8, ¬(s.a.getLsbD k = true ∧ (s.mem.read (effAddr m s).1).getLsbD k = true)) ∧
      getFlag .v t.sr = (s.mem.read (effAddr m s).1).getLsbD 6 ∧ getFlag .n t.sr = (s.mem.read (effAddr m s).1).getLsbD 7 ∧
      Frame [] [.z, .v, .n] [] s t

/-- INC and DEC in every mode: the byte at the effective address plus or minus 1 modulo 256, Z and N from it, C and V untouched (44_incdec.md R108,
R109). -/
def Obligations.IncAndDecChangeMemoryByOne : Prop :=
  ∀ (i : Instr) (m : MemOperand) (s : State), i.operand.memory? = some m →
    (i.mnemonic = .inc → ∃ t v, exec i s = .next t ∧ v.toNat = ((s.mem.read (effAddr m s).1).toNat + 1) % 256 ∧
      (Inv s → t.mem.read (effAddr m s).1 = v) ∧ NzOf v t ∧ Frame [] [.z, .n] [(effAddr m s).1] s t) ∧
    (i.mnemonic = .dec → ∃ t v, exec i s = .next t ∧ v.toNat = ((s.mem.read (effAddr m s).1).toNat + 255) % 256 ∧
      (Inv s → t.mem.read (effAddr m s).1 = v) ∧ NzOf v t ∧ Frame [] [.z, .n] [(effAddr m s).1] s t)

/-- The step on opcode 0xE8 (44_incdec.md R110, INX): X plus 1 modulo 256, Z and N from it, PC advanced by 1, cost 2 cycles, no report, nothing else
changed, and the opcode fetch the only access (30_encoding.md R70 and 20_memory.md R45; the access sequence is the spec's decision D13). -/
def Obligations.InxIncrementsXInOneStep : Prop :=
  encode .inx = [0xE8#8] ∧
  ∀ s : State, s.mem.read s.pc = 0xE8#8 →
    ∃ t, step s = .next t ∧ t.x.toNat = (s.x.toNat + 1) % 256 ∧ NzOf t.x t ∧ t.pc.toNat = (s.pc.toNat + 1) % 65536 ∧
      t.cycles = some 2 ∧ t.report = none ∧ t.accesses = [.read s.pc 0xE8#8] ∧ t.a = s.a ∧ t.y = s.y ∧ t.sp = s.sp ∧ t.mem = s.mem ∧
      ∀ f, f ≠ .z → f ≠ .n → getFlag f t.sr = getFlag f s.sr

/-- INX, DEX, INY, DEY: the register plus or minus 1 modulo 256, Z and N from it, C and V untouched (44_incdec.md R110 to R113). -/
def Obligations.RegisterIncrementsChangeByOne : Prop :=
  ∀ s : State,
    (∃ t, exec .inx s = .next t ∧ t.x.toNat = (s.x.toNat + 1) % 256 ∧ NzOf t.x t ∧ Frame [.x] [.z, .n] [] s t) ∧
    (∃ t, exec .dex s = .next t ∧ t.x.toNat = (s.x.toNat + 255) % 256 ∧ NzOf t.x t ∧ Frame [.x] [.z, .n] [] s t) ∧
    (∃ t, exec .iny s = .next t ∧ t.y.toNat = (s.y.toNat + 1) % 256 ∧ NzOf t.y t ∧ Frame [.y] [.z, .n] [] s t) ∧
    (∃ t, exec .dey s = .next t ∧ t.y.toNat = (s.y.toNat + 255) % 256 ∧ NzOf t.y t ∧ Frame [.y] [.z, .n] [] s t)

/-- JMP Absolute goes to its operand; JMP Indirect to the little-endian value at its pointer, whose second byte is in the pointer's page: at the
pointer plus 1, or 255 below the pointer when its low byte is 0xFF (45_jump_call.md R115, R116; the page wrap is the spec's
decision D11). -/
def Obligations.JumpsSetPcToTheirTarget : Prop :=
  ∀ (w : Addr) (s : State),
    (∃ t, exec (.jmpAbs w) s = .next t ∧ t.pc = w ∧ Frame [.pc] [] [] s t) ∧
    ∀ hiAt : Nat, (w.toNat % 256 = 255 → hiAt = w.toNat - 255) → (w.toNat % 256 ≠ 255 → hiAt = w.toNat + 1) →
      ∃ t, exec (.jmpInd w) s = .next t ∧
        t.pc.toNat = 256 * (s.mem.read (BitVec.ofNat 16 hiAt)).toNat + (s.mem.read w).toNat ∧ Frame [.pc] [] [] s t

/-- JSR stores PC - 1, high byte at 0x0100 + SP and low byte one slot down, takes SP down by 2 and goes to its operand; RTS takes SP up by 2 and goes to
the popped address plus 1 (45_jump_call.md R117, R118; the fetches before the pushes are the spec's decision D14). -/
def Obligations.CallsAndReturnsUseTheStack : Prop :=
  ∀ (w : Addr) (s : State),
    (∃ t, exec (.jsr w) s = .next t ∧ t.pc = w ∧ t.sp = s.sp - 2#8 ∧
      (Inv s → 256 * (t.mem.read (stackAddr s.sp)).toNat + (t.mem.read (stackAddr (s.sp - 1#8))).toNat =
        (s.pc.toNat + 65535) % 65536) ∧
      Frame [.pc, .sp] [] [stackAddr s.sp, stackAddr (s.sp - 1#8)] s t) ∧
    (∃ t, exec .rts s = .next t ∧ t.sp = s.sp + 2#8 ∧
      t.pc.toNat = (256 * (s.mem.read (stackAddr (s.sp + 2#8))).toNat +
        (s.mem.read (stackAddr (s.sp + 1#8))).toNat + 1) % 65536 ∧
      Frame [.pc, .sp] [] [] s t)

/-- JSR followed by RTS returns PC to the address after the JSR and restores SP (45_jump_call.md R119). -/
def Obligations.JsrThenRtsResumesAfterTheCall : Prop :=
  ∀ (w : Addr) (s : State), Inv s → ∃ t u, exec (.jsr w) s = .next t ∧ exec .rts t = .next u ∧
    u.pc = s.pc ∧ u.sp = s.sp ∧ u.a = s.a ∧ u.x = s.x ∧ u.y = s.y ∧ u.sr = s.sr

/-- PHA followed by PLA restores A and SP, whatever A held between (42_stack.md R97, R99, and the property of 95_test_vectors.md 1.10). -/
def Obligations.PhaThenPlaRestoresAAndSp : Prop :=
  ∀ (s : State) (v : Byte), Inv s → ∃ t u, exec .pha s = .next t ∧ exec .pla (t.setA v) = .next u ∧
    u.a = s.a ∧ u.sp = s.sp ∧ u.pc = s.pc ∧ NzOf s.a u

/-- BRK: PC (past the opcode) and SR with the Break bit forced in the copy are stored down from 0x0100 + SP, SP is 3 lower, I is set and no other
bit of SR changes, and PC is the value at 0xFFFE and 0xFFFF (46_system.md R120, 60_exceptions.md R176; the pushed PC, its byte order and
B left alone are the spec's decisions D6, D7, D8). -/
def Obligations.BrkTakesTheTrap : Prop :=
  ∀ s : State, ∃ t, exec .brk s = .next t ∧ t.sp = s.sp - 3#8 ∧ getFlag .i t.sr = true ∧
    t.pc.toNat = 256 * (s.mem.read 0xFFFF#16).toNat + (s.mem.read 0xFFFE#16).toNat ∧
    (Inv s → 256 * (t.mem.read (stackAddr s.sp)).toNat + (t.mem.read (stackAddr (s.sp - 1#8))).toNat = s.pc.toNat ∧
      getFlag .b (t.mem.read (stackAddr (s.sp - 2#8))) = true ∧
      ∀ f, f ≠ .b → getFlag f (t.mem.read (stackAddr (s.sp - 2#8))) = getFlag f s.sr) ∧
    Frame [.pc, .sp] [.i] [stackAddr s.sp, stackAddr (s.sp - 1#8), stackAddr (s.sp - 2#8)] s t

/-- RTI: SR raw, then PC low byte first, from the three bytes above SP, with no increment (46_system.md R122, general knowledge of the spec, D16). -/
def Obligations.RtiReturnsFromTheTrap : Prop :=
  ∀ s : State, ∃ t, exec .rti s = .next t ∧ t.sp = s.sp + 3#8 ∧ t.sr = s.mem.read (stackAddr (s.sp + 1#8)) ∧
    t.pc.toNat = 256 * (s.mem.read (stackAddr (s.sp + 3#8))).toNat + (s.mem.read (stackAddr (s.sp + 2#8))).toNat ∧
    Frame [.pc, .sp] [.c, .z, .i, .d, .b, .u, .v, .n] [] s t

/-- BRK followed by RTI resumes at the byte after the BRK opcode with SP as before and every bit of SR restored but Break, which is 1 (60_exceptions.md
R178, general knowledge of the spec, D16, with D6 and D8). -/
def Obligations.BrkThenRtiResumesAfterTheBreak : Prop :=
  ∀ s : State, Inv s → ∃ t u, exec .brk s = .next t ∧ exec .rti t = .next u ∧
    u.pc = s.pc ∧ u.sp = s.sp ∧ u.a = s.a ∧ u.x = s.x ∧ u.y = s.y ∧
    getFlag .b u.sr = true ∧ ∀ f, f ≠ .b → getFlag f u.sr = getFlag f s.sr

/-- NOP (46_system.md R121): the handler changes nothing, so the only effects of the step on 0xEA are the one read of the opcode, PC advanced by 1 and
the cycle output 2. -/
def Obligations.NopChangesNothingButPc : Prop :=
  encode .nop = [0xEA#8] ∧ (∀ s : State, exec .nop s = .next s) ∧
  ∀ s : State, s.mem.read s.pc = 0xEA#8 →
    step s = .next { s with pc := s.pc + 1#16, cycles := some 2, report := none, accesses := [.read s.pc 0xEA#8] }

/-- ADC in every mode, in any state, D set or not: A plus operand plus Carry modulo 256, C for the unsigned reading, V for the two's complement
reading, Z and N from the result (47_arith_compare.md R137, R138, general knowledge of the spec, D22; binary is D15). -/
def Obligations.AdcAddsWithCarry : Prop :=
  ∀ (i : Instr) (src : Source) (s : State), i.mnemonic = .adc → i.operand.source? = some src →
    ∃ t, exec i s = .next t ∧
      t.a.toNat = (s.a.toNat + (readSource src s).1.toNat + carryIn s) % 256 ∧
      getFlag .c t.sr = decide (255 < s.a.toNat + (readSource src s).1.toNat + carryIn s) ∧
      (getFlag .v t.sr = true ↔ outOfSignedRange (s.a.toInt + (readSource src s).1.toInt + carryIn s)) ∧
      NzOf t.a t ∧ Frame [.a] [.c, .z, .v, .n] [] s t

/-- SBC in every mode, in any state, D set or not: A minus operand minus the complement of Carry, C when there is no borrow, V for the two's
complement reading, Z and N from the result (47_arith_compare.md R137, R139, general knowledge of the spec, D22; binary is D15). -/
def Obligations.SbcSubtractsWithBorrow : Prop :=
  ∀ (i : Instr) (src : Source) (s : State), i.mnemonic = .sbc → i.operand.source? = some src →
    ∃ t, exec i s = .next t ∧
      (t.a.toNat : Int) = ((s.a.toNat : Int) - (readSource src s).1.toNat - (1 - carryIn s)) % 256 ∧
      getFlag .c t.sr = decide ((0 : Int) ≤ (s.a.toNat : Int) - (readSource src s).1.toNat - (1 - carryIn s)) ∧
      (getFlag .v t.sr = true ↔ outOfSignedRange (s.a.toInt - (readSource src s).1.toInt - (1 - carryIn s))) ∧
      NzOf t.a t ∧ Frame [.a] [.c, .z, .v, .n] [] s t

/-- ADC and SBC never read D: with D turned over the result differs in D alone (47_arith_compare.md R137; the spec's decision D15). -/
def Obligations.DecimalFlagChangesNoArithmetic : Prop :=
  ∀ (i : Instr) (s t : State), (i.mnemonic = .adc ∨ i.mnemonic = .sbc) → exec i s = .next t →
    exec i (flipFlag .d s) = .next (flipFlag .d t)

/-- CMP, CPX, CPY in every mode: C when the register is at least the operand, unsigned, Z when equal, N bit 7 of the difference modulo 256; V and the
register unchanged (47_arith_compare.md R140 to R142, general knowledge of the spec, D22). -/
def Obligations.ComparesSetCarryZeroNegative : Prop :=
  ∀ (i : Instr) (src : Source) (s : State) (r : Byte), i.operand.source? = some src →
    (i.mnemonic = .cmp ∧ r = s.a ∨ i.mnemonic = .cpx ∧ r = s.x ∨ i.mnemonic = .cpy ∧ r = s.y) →
    ∃ t, exec i s = .next t ∧
      getFlag .c t.sr = decide ((readSource src s).1.toNat ≤ r.toNat) ∧
      getFlag .z t.sr = decide (r = (readSource src s).1) ∧
      getFlag .n t.sr = decide (128 ≤ (r.toNat + 256 - (readSource src s).1.toNat) % 256) ∧
      Frame [] [.c, .z, .n] [] s t

/-- ASL, LSR, ROL, ROR on A and on memory in every mode: the operand moved by one bit, 0 or the old Carry shifted in, the bit shifted out in C, Z and
N from the result (48_shift_rotate.md R144 to R148, general knowledge of the spec, D22). -/
def Obligations.ShiftsMoveOneBitThroughCarry : Prop :=
  ∀ (i : Instr) (p : Place) (s : State), i.operand.place? = some p → i.mnemonic ∈ [.asl, .lsr, .rol, .ror] →
    ∃ t r, exec i s = .next t ∧
      (i.mnemonic = .asl → r.toNat = (2 * (placeValue p s).toNat) % 256 ∧
        getFlag .c t.sr = decide (128 ≤ (placeValue p s).toNat)) ∧
      (i.mnemonic = .rol → r.toNat = (2 * (placeValue p s).toNat + carryIn s) % 256 ∧
        getFlag .c t.sr = decide (128 ≤ (placeValue p s).toNat)) ∧
      (i.mnemonic = .lsr → r.toNat = (placeValue p s).toNat / 2 ∧
        getFlag .c t.sr = decide ((placeValue p s).toNat % 2 = 1)) ∧
      (i.mnemonic = .ror → r.toNat = (placeValue p s).toNat / 2 + 128 * carryIn s ∧
        getFlag .c t.sr = decide ((placeValue p s).toNat % 2 = 1)) ∧
      NzOf r t ∧ (p = .acc → t.a = r) ∧ (∀ m, p = .mem m → Inv s → t.mem.read (effAddr m s).1 = r) ∧
      Frame (placeRegs p) [.c, .z, .n] (placeCells p s) s t

/-- Nine ROLs of A, or nine RORs, restore A and Carry: the rotation is through 9 bits (48_shift_rotate.md R147 and 95_test_vectors.md section 3.9,
general knowledge of the spec, D22). -/
def Obligations.NineRotationsRestoreAAndCarry : Prop :=
  ∀ (s : State) (i : Instr), (i = .rolAcc ∨ i = .rorAcc) →
    ∃ t, repeatExec i 9 s = some t ∧ t.a = s.a ∧ getFlag .c t.sr = getFlag .c s.sr

/-- The eight branches: taken exactly when the table's condition holds, to PC past the instruction plus the signed displacement modulo 65536; else PC
stays past the instruction; no flag written (49_branch_flag.md R150 to R158, general knowledge of the spec, D21, D22). -/
def Obligations.BranchesMovePcWhenTheirConditionHolds : Prop :=
  ∀ (i : Instr) (d : Byte) (s : State) (f : Flag) (b : Bool), i.operand = .relative d → branchTest i.mnemonic = some (f, b) →
    ∃ t, exec i s = .next t ∧
      (getFlag f s.sr = b → (t.pc.toNat : Int) = ((s.pc.toNat : Int) + d.toInt) % 65536) ∧
      (getFlag f s.sr ≠ b → t.pc = s.pc) ∧ Frame [.pc] [] [] s t

/-- CLC, SEC, CLI, SEI, CLV, CLD, SED: exactly one bit of SR written, with the table's value, and nothing else (49_branch_flag.md R160 to R166, general
knowledge of the spec, D22). -/
def Obligations.FlagInstructionsWriteOneBit : Prop :=
  ∀ (i : Instr) (f : Flag) (b : Bool) (s : State), flagEffect i.mnemonic = some (f, b) →
    ∃ t, exec i s = .next t ∧ getFlag f t.sr = b ∧ Frame [] [f] [] s t

/-- An instruction stored where the next step fetches is the one it runs, in particular one stored by the instruction before (20_memory.md R54,
marked derived; `withFetchWord` is the model's own, log 7). -/
def Obligations.StoredWordIsTheNextInstruction : Prop :=
  ∀ (s : State) (nbits w : Nat) (i : Instr), Inv s → decodeTableWord nbits w = some i →
    ∃ row, lookupOpcode i.opcode = some row ∧
      step (s.withFetchWord nbits w) = exec i (afterFetch i row.cycles (s.withFetchWord nbits w))
end

