-- ==== Sys2Proof/Laws/Bits.lean ====
section
/-! SUPPORT. Slices and concatenation of words. -/

namespace Sys2Proof.Machine

@[simp] theorem wordOf_hi_lo (w : Addr) : wordOf (hiByte w) (loByte w) = w := by
  unfold wordOf hiByte loByte
  rw [BitVec.extractLsb'_append_extractLsb'_eq_extractLsb' (by rfl)]
  simp

/-- `{hi, lo}` is `hi * 256 + lo` (00_scope.md section 5). -/
theorem wordOf_toNat (hi lo : Byte) : (wordOf hi lo).toNat = hi.toNat * 256 + lo.toNat := by
  have h := lo.isLt
  simp only [wordOf, BitVec.toNat_append]
  rw [← Nat.shiftLeft_add_eq_or_of_lt h, Nat.shiftLeft_eq]

theorem zext16_toNat (v : Byte) : (zext16 v).toNat = v.toNat := by
  have := v.isLt
  simp only [zext16, BitVec.toNat_setWidth]
  omega

theorem hiByte_toNat (w : Addr) : (hiByte w).toNat = w.toNat / 256 := by
  have := w.isLt
  simp only [hiByte, BitVec.extractLsb'_toNat, Nat.shiftRight_eq_div_pow]
  omega

theorem loByte_toNat (w : Addr) : (loByte w).toNat = w.toNat % 256 := by
  simp only [loByte, BitVec.extractLsb'_toNat, Nat.shiftRight_eq_div_pow]
  omega

@[simp] theorem hiByte_wordOf (hi lo : Byte) : hiByte (wordOf hi lo) = hi := by
  apply BitVec.eq_of_toNat_eq
  have := lo.isLt
  rw [hiByte_toNat, wordOf_toNat]
  omega

@[simp] theorem loByte_wordOf (hi lo : Byte) : loByte (wordOf hi lo) = lo := by
  apply BitVec.eq_of_toNat_eq
  have := lo.isLt
  rw [loByte_toNat, wordOf_toNat]
  omega

theorem wordOf_inj {h h' l l' : Byte} (e : wordOf h l = wordOf h' l') : h = h' ∧ l = l' :=
  ⟨by simpa using congrArg hiByte e, by simpa using congrArg loByte e⟩

end Sys2Proof.Machine
end

