-- ==== Sys2Proof/Laws/Decode.lean ====
section
/-! SUPPORT. The dispatch table: 151 rows, no two with one opcode byte, and what a lookup finds is a row of the table. -/

namespace Sys2Proof

theorem opcodeTable_length : opcodeTable.length = 151 := by
  decide +kernel

/-- The rows stand in the order of their opcode bytes. -/
theorem opcodeTable_rising : (opcodeTable.map (·.opcode.toNat)).IsChain (· < ·) := by
  decide +kernel

/-- No two rows overlap. -/
theorem opcodeTable_distinct : (opcodeTable.map (·.opcode)).Pairwise (· ≠ ·) := by
  have h := List.isChain_iff_pairwise.1 opcodeTable_rising
  rw [List.pairwise_map] at h ⊢
  exact h.imp fun hlt heq => by simp [heq] at hlt

theorem lookupOpcode_some {op : Byte} {row : Row} (h : lookupOpcode op = some row) : row ∈ opcodeTable ∧ row.opcode = op := by
  unfold lookupOpcode at h
  exact ⟨List.mem_of_find?_eq_some h, by simpa using List.find?_some h⟩

/-- A row of the table is what a lookup of its opcode finds. -/
theorem lookupOpcode_of_mem {row : Row} (h : row ∈ opcodeTable) : lookupOpcode row.opcode = some row := by
  have hp := opcodeTable_distinct
  unfold lookupOpcode
  generalize opcodeTable = l at h hp
  induction l with
  | nil => cases h
  | cons r rest ih =>
    simp only [List.map_cons, List.pairwise_cons, List.mem_map] at hp
    rcases List.mem_cons.1 h with rfl | hr
    · simp
    · have : r.opcode ≠ row.opcode := hp.1 _ ⟨row, hr, rfl⟩
      rw [List.find?_cons_of_neg (by simpa using this)]
      exact ih hr hp.2

/-- Two operand bytes complete a form of three bytes. -/
theorem completeForm_f3 (op : Byte) (make : Addr → Instr) (w : Addr) (rest : List Byte) :
    completeForm op (.f3 make) (wordBytes w ++ rest) = .instr (make w) rest := by
  simp [wordBytes, completeForm]

/-- What decodes has an entry in the table. -/
theorem decode_instr {bytes rest : List Byte} {i : Instr} (h : decode bytes = .instr i rest) :
    ∃ op tail row, bytes = op :: tail ∧ lookupOpcode op = some row ∧ completeForm op row.form tail = .instr i rest := by
  cases bytes with
  | nil => simp [decode] at h
  | cons op tail =>
    simp only [decode] at h
    rcases hl : lookupOpcode op with _ | row
    · simp [hl] at h
    · simp only [hl] at h
      exact ⟨op, tail, row, rfl, hl, h⟩

end Sys2Proof
end

