-- ==== Sys2Proof/Laws/Flags.lean ====
section
/-! SUPPORT. What each flag computation leaves in each bit of SR. -/

namespace Sys2Proof.Machine

@[simp] theorem getFlag_putFlag (f g : Flag) (b : Bool) (sr : Byte) :
    getFlag g (putFlag f b sr) = if g = f then b else getFlag g sr := by
  cases f <;> cases g <;> cases b <;> simp [getFlag, putFlag, flagMask, flagBit]

/-- Z and N from the value, every other bit as before (10_state.md R23). -/
@[simp] theorem getFlag_setNZ (v sr : Byte) (g : Flag) :
    getFlag g (setNZ v sr) = if g = .n then v.msb else if g = .z then decide (v = 0#8) else getFlag g sr := by
  simp [setNZ]

@[simp] theorem getFlag_addFlags (r : AddResult) (sr : Byte) (g : Flag) :
    getFlag g (addFlags r sr) = if g = .n then r.value.msb else if g = .z then decide (r.value = 0#8)
      else if g = .v then r.overflow else if g = .c then r.carry else getFlag g sr := by
  simp [addFlags]

@[simp] theorem getFlag_compareFlags (r m sr : Byte) (g : Flag) :
    getFlag g (compareFlags r m sr) = if g = .n then (r - m).msb else if g = .z then decide (r - m = 0#8)
      else if g = .c then decide (m.toNat ≤ r.toNat) else getFlag g sr := by
  simp [compareFlags]

@[simp] theorem getFlag_shiftFlags (r : ShiftResult) (sr : Byte) (g : Flag) :
    getFlag g (shiftFlags r sr) = if g = .n then r.value.msb else if g = .z then decide (r.value = 0#8)
      else if g = .c then r.carry else getFlag g sr := by
  simp [shiftFlags]

@[simp] theorem getFlag_bitTestFlags (a m sr : Byte) (g : Flag) :
    getFlag g (bitTestFlags a m sr) = if g = .n then m.getLsbD 7 else if g = .v then m.getLsbD 6
      else if g = .z then decide (a &&& m = 0#8) else getFlag g sr := by
  simp [bitTestFlags]

/-- One bit turned over is that bit's complement and leaves the others. -/
theorem getFlag_flip (f g : Flag) (sr : Byte) : getFlag g (sr ^^^ flagMask f) = (getFlag g sr ^^ decide (g = f)) := by
  cases f <;> cases g <;> simp [getFlag, flagMask, flagBit]

/-- A status byte is its eight flags. -/
theorem sr_eq_of_flags (p q : Byte) (h : ∀ f, getFlag f p = getFlag f q) : p = q := by
  have h0 := h .c; have h1 := h .z; have h2 := h .i; have h3 := h .d
  have h4 := h .b; have h5 := h .u; have h6 := h .v; have h7 := h .n
  simp only [getFlag, flagBit] at h0 h1 h2 h3 h4 h5 h6 h7
  apply BitVec.eq_of_getLsbD_eq
  intro i hi
  rcases i with _ | _ | _ | _ | _ | _ | _ | _ | i
  · exact h0
  · exact h1
  · exact h2
  · exact h3
  · exact h4
  · exact h5
  · exact h6
  · exact h7
  · omega

/-- A write of one flag and a turn of another are made in either order. -/
theorem putFlag_flip (f g : Flag) (b : Bool) (sr : Byte) (h : g ≠ f) :
    putFlag g b (sr ^^^ flagMask f) = putFlag g b sr ^^^ flagMask f := by
  refine sr_eq_of_flags _ _ fun q => ?_
  rw [getFlag_flip f q (putFlag g b sr), getFlag_putFlag g q b sr, getFlag_putFlag g q b (sr ^^^ flagMask f), getFlag_flip]
  by_cases hq : q = g
  · simp [hq, h]
  · simp [hq]

end Sys2Proof.Machine
end

