-- ==== Sys2Proof/Laws/Memory.lean ====
section
/-! SUPPORT. The laws of the plain memory (20_memory.md R39, log 1): a write leaves every other address alone, a read after a write to
the same address answers what was written, and every operation keeps the canonical form. -/

namespace Sys2Proof.Machine

theorem cellRead_cellCons (a b : Nat) (v : Byte) (rest : List Host.Cell) (h : b ≠ a) :
    cellRead (cellCons a v rest) b = cellRead rest b := by
  unfold cellCons
  split
  · rfl
  · simp [cellRead, Ne.symm h]

/-- A write leaves every other key alone, in canonical form or not. -/
theorem cellRead_cellWrite_other (m : List Host.Cell) (a b : Nat) (v : Byte) (h : b ≠ a) :
    cellRead (cellWrite m a v) b = cellRead m b := by
  induction m with
  | nil => simp [cellWrite, cellRead_cellCons _ _ _ _ h]
  | cons c rest ih =>
    obtain ⟨k, w⟩ := c
    simp only [cellWrite]
    split
    · exact cellRead_cellCons _ _ _ _ h
    · split
      · next hak => rw [cellRead_cellCons _ _ _ _ h]; simp [cellRead, ← hak, Ne.symm h]
      · simp only [cellRead, ih]

/-- Keys below the bound of a canonical list are not listed. -/
theorem cellRead_below (m : List Host.Cell) (lo a : Nat) (h : cellsWf lo m = true) (ha : a < lo) :
    cellRead m a = Config.unlistedByte := by
  induction m generalizing lo with
  | nil => rfl
  | cons c rest ih =>
    obtain ⟨k, w⟩ := c
    simp only [cellsWf, Bool.and_eq_true, decide_eq_true_eq] at h
    obtain ⟨⟨⟨hlo, -⟩, -⟩, hrest⟩ := h
    have hk : k ≠ a := by omega
    simp only [cellRead, hk, if_false]
    exact ih (k + 1) hrest (by omega)

theorem cellRead_cellCons_same (m : List Host.Cell) (a lo : Nat) (v : Byte) (h : cellsWf lo m = true) (ha : a < lo) :
    cellRead (cellCons a v m) a = v := by
  unfold cellCons
  split
  · next hv => rw [cellRead_below m lo a h ha, hv]
  · simp [cellRead]

/-- A read after a write to the same key answers what was written, in canonical form. -/
theorem cellRead_cellWrite_same (m : List Host.Cell) (lo a : Nat) (v : Byte) (h : cellsWf lo m = true) :
    cellRead (cellWrite m a v) a = v := by
  induction m generalizing lo with
  | nil => exact cellRead_cellCons_same [] a (a + 1) v rfl (by omega)
  | cons c rest ih =>
    obtain ⟨k, w⟩ := c
    have hall := h
    simp only [cellsWf, Bool.and_eq_true, decide_eq_true_eq] at h
    obtain ⟨⟨⟨hlo, hk⟩, hw⟩, hrest⟩ := h
    simp only [cellWrite]
    split
    · next hak =>
      exact cellRead_cellCons_same _ a k v (by simp [cellsWf, hk, hw, hrest]) hak
    · split
      · next hak => exact cellRead_cellCons_same _ a (k + 1) v hrest (by omega)
      · next hak =>
        have : k ≠ a := fun e => hak e.symm
        simp only [cellRead, this, if_false]
        exact ih (k + 1) hrest

/-- A canonical list stays canonical from any lower bound. -/
theorem cellsWf_mono (m : List Host.Cell) (lo lo' : Nat) (h : cellsWf lo m = true) (hle : lo' ≤ lo) :
    cellsWf lo' m = true := by
  cases m with
  | nil => rfl
  | cons c rest =>
    obtain ⟨k, w⟩ := c
    simp only [cellsWf, Bool.and_eq_true, decide_eq_true_eq] at h ⊢
    obtain ⟨⟨⟨hlo, hk⟩, hw⟩, hrest⟩ := h
    exact ⟨⟨⟨by omega, hk⟩, hw⟩, hrest⟩

theorem cellsWf_cellCons (m : List Host.Cell) (lo a : Nat) (v : Byte) (h : cellsWf (a + 1) m = true) (hlo : lo ≤ a)
    (ha : a < 65536) : cellsWf lo (cellCons a v m) = true := by
  unfold cellCons
  split
  · exact cellsWf_mono m (a + 1) lo h (by omega)
  · next hv => simp [cellsWf, hlo, ha, hv, h]

/-- A write keeps the canonical form. -/
theorem cellsWf_cellWrite (m : List Host.Cell) (lo a : Nat) (v : Byte) (h : cellsWf lo m = true) (hlo : lo ≤ a)
    (ha : a < 65536) : cellsWf lo (cellWrite m a v) = true := by
  induction m generalizing lo with
  | nil => exact cellsWf_cellCons [] lo a v rfl hlo ha
  | cons c rest ih =>
    obtain ⟨k, w⟩ := c
    simp only [cellsWf, Bool.and_eq_true, decide_eq_true_eq] at h
    obtain ⟨⟨⟨hk0, hk⟩, hw⟩, hrest⟩ := h
    simp only [cellWrite]
    split
    · next hak => exact cellsWf_cellCons _ lo a v (by simp [cellsWf, hk, hw, hrest]; omega) hlo ha
    · split
      · next hak => exact cellsWf_cellCons _ lo a v (hak ▸ hrest) hlo ha
      · next h1 h2 => simp [cellsWf, hk0, hk, hw, ih (k + 1) hrest (by omega)]

theorem Memory.read_write_other (m : Memory) (a b : Addr) (v : Byte) (h : b ≠ a) : (m.write a v).read b = m.read b :=
  cellRead_cellWrite_other m a.toNat b.toNat v (fun e => h (BitVec.eq_of_toNat_eq e))

theorem Memory.read_write_same (m : Memory) (a : Addr) (v : Byte) (h : m.wf = true) : (m.write a v).read a = v :=
  cellRead_cellWrite_same m 0 a.toNat v h

theorem Memory.write_wf (m : Memory) (a : Addr) (v : Byte) (h : m.wf = true) : (m.write a v).wf = true :=
  cellsWf_cellWrite m 0 a.toNat v h (Nat.zero_le _) a.isLt

theorem Memory.writeBytes_wf (bytes : List Byte) (m : Memory) (a : Addr) (h : m.wf = true) :
    (m.writeBytes a bytes).wf = true := by
  induction bytes generalizing m a with
  | nil => exact h
  | cons v rest ih => exact ih _ _ (Memory.write_wf m a v h)

/-- Three bytes stored at an address read back there, across the top of the address space too. -/
theorem Memory.read_writeBytes_three (m : Memory) (a : Addr) (p q r : Byte) (h : m.wf = true) :
    (m.writeBytes a [p, q, r]).read a = p ∧ (m.writeBytes a [p, q, r]).read (a + 1#16) = q ∧
      (m.writeBytes a [p, q, r]).read (a + 2#16) = r := by
  have h1 := Memory.write_wf m a p h
  have h2 := Memory.write_wf _ (a + 1#16) q h1
  have e : a + 1#16 + 1#16 = a + 2#16 := by rw [BitVec.add_assoc]; rfl
  simp only [Memory.writeBytes, e]
  refine ⟨?_, ?_, Memory.read_write_same _ _ _ h2⟩
  · rw [Memory.read_write_other _ _ _ _ (by bv_omega), Memory.read_write_other _ _ _ _ (by bv_omega),
      Memory.read_write_same _ _ _ h]
  · rw [Memory.read_write_other _ _ _ _ (by bv_omega), Memory.read_write_same _ _ _ h1]

/-- Equal reads are equal memories: the canonical form is one list per contents. -/
theorem cells_ext (m m' : List Host.Cell) (lo : Nat) (h : cellsWf lo m = true) (h' : cellsWf lo m' = true)
    (hr : ∀ a, cellRead m a = cellRead m' a) : m = m' := by
  induction m generalizing m' lo with
  | nil =>
    cases m' with
    | nil => rfl
    | cons c' rest' =>
      obtain ⟨k', w'⟩ := c'
      simp only [cellsWf, Bool.and_eq_true, decide_eq_true_eq] at h'
      have := hr k'
      simp only [cellRead, if_true] at this
      exact absurd this.symm h'.1.2
  | cons c rest ih =>
    obtain ⟨k, w⟩ := c
    have hc := h
    simp only [cellsWf, Bool.and_eq_true, decide_eq_true_eq] at h
    cases m' with
    | nil =>
      have := hr k
      simp only [cellRead, if_true] at this
      exact absurd this h.1.2
    | cons c' rest' =>
      obtain ⟨k', w'⟩ := c'
      have hc' := h'
      simp only [cellsWf, Bool.and_eq_true, decide_eq_true_eq] at h'
      have hkk : k = k' := by
        rcases Nat.lt_trichotomy k k' with hlt | heq | hgt
        · have h1 := hr k
          rw [cellRead_below ((k', w') :: rest') k' k (by simp [cellsWf, h'.1.1.2, h'.1.2, h'.2]) hlt] at h1
          simp only [cellRead, if_true] at h1
          exact absurd h1 h.1.2
        · exact heq
        · have h1 := hr k'
          rw [cellRead_below ((k, w) :: rest) k k' (by simp [cellsWf, h.1.1.2, h.1.2, h.2]) hgt] at h1
          simp only [cellRead, if_true] at h1
          exact absurd h1.symm h'.1.2
      subst hkk
      have hw : w = w' := by
        have h1 := hr k
        simpa only [cellRead, if_true] using h1
      subst hw
      rw [ih rest' (k + 1) h.2 h'.2]
      intro a
      by_cases hka : k = a
      · subst hka
        rw [cellRead_below rest (k + 1) k h.2 (by omega), cellRead_below rest' (k + 1) k h'.2 (by omega)]
      · have h1 := hr a
        simpa only [cellRead, hka, if_false] using h1

end Sys2Proof.Machine
end

