-- ==== Sys2Proof/Laws/State.lean ====
section
/-! SUPPORT. One lemma per field per update of the state, so that no proof unfolds a record update. -/

namespace Sys2Proof.Machine

@[simp] theorem State.setA_a (s : State) (v : Byte) : (s.setA v).a = v := rfl
@[simp] theorem State.setA_x (s : State) (v : Byte) : (s.setA v).x = s.x := rfl
@[simp] theorem State.setA_y (s : State) (v : Byte) : (s.setA v).y = s.y := rfl
@[simp] theorem State.setA_sp (s : State) (v : Byte) : (s.setA v).sp = s.sp := rfl
@[simp] theorem State.setA_sr (s : State) (v : Byte) : (s.setA v).sr = s.sr := rfl
@[simp] theorem State.setA_pc (s : State) (v : Byte) : (s.setA v).pc = s.pc := rfl
@[simp] theorem State.setA_mem (s : State) (v : Byte) : (s.setA v).mem = s.mem := rfl
@[simp] theorem State.setA_cycles (s : State) (v : Byte) : (s.setA v).cycles = s.cycles := rfl
@[simp] theorem State.setA_report (s : State) (v : Byte) : (s.setA v).report = s.report := rfl
@[simp] theorem State.setA_accesses (s : State) (v : Byte) : (s.setA v).accesses = s.accesses := rfl
@[simp] theorem State.setA_setA (s : State) (v w : Byte) : (s.setA v).setA w = s.setA w := rfl
@[simp] theorem State.setA_self (s : State) : s.setA s.a = s := rfl

@[simp] theorem State.setX_a (s : State) (v : Byte) : (s.setX v).a = s.a := rfl
@[simp] theorem State.setX_x (s : State) (v : Byte) : (s.setX v).x = v := rfl
@[simp] theorem State.setX_y (s : State) (v : Byte) : (s.setX v).y = s.y := rfl
@[simp] theorem State.setX_sp (s : State) (v : Byte) : (s.setX v).sp = s.sp := rfl
@[simp] theorem State.setX_sr (s : State) (v : Byte) : (s.setX v).sr = s.sr := rfl
@[simp] theorem State.setX_pc (s : State) (v : Byte) : (s.setX v).pc = s.pc := rfl
@[simp] theorem State.setX_mem (s : State) (v : Byte) : (s.setX v).mem = s.mem := rfl
@[simp] theorem State.setX_cycles (s : State) (v : Byte) : (s.setX v).cycles = s.cycles := rfl
@[simp] theorem State.setX_report (s : State) (v : Byte) : (s.setX v).report = s.report := rfl
@[simp] theorem State.setX_accesses (s : State) (v : Byte) : (s.setX v).accesses = s.accesses := rfl
@[simp] theorem State.setX_setX (s : State) (v w : Byte) : (s.setX v).setX w = s.setX w := rfl
@[simp] theorem State.setX_self (s : State) : s.setX s.x = s := rfl

@[simp] theorem State.setY_a (s : State) (v : Byte) : (s.setY v).a = s.a := rfl
@[simp] theorem State.setY_x (s : State) (v : Byte) : (s.setY v).x = s.x := rfl
@[simp] theorem State.setY_y (s : State) (v : Byte) : (s.setY v).y = v := rfl
@[simp] theorem State.setY_sp (s : State) (v : Byte) : (s.setY v).sp = s.sp := rfl
@[simp] theorem State.setY_sr (s : State) (v : Byte) : (s.setY v).sr = s.sr := rfl
@[simp] theorem State.setY_pc (s : State) (v : Byte) : (s.setY v).pc = s.pc := rfl
@[simp] theorem State.setY_mem (s : State) (v : Byte) : (s.setY v).mem = s.mem := rfl
@[simp] theorem State.setY_cycles (s : State) (v : Byte) : (s.setY v).cycles = s.cycles := rfl
@[simp] theorem State.setY_report (s : State) (v : Byte) : (s.setY v).report = s.report := rfl
@[simp] theorem State.setY_accesses (s : State) (v : Byte) : (s.setY v).accesses = s.accesses := rfl
@[simp] theorem State.setY_setY (s : State) (v w : Byte) : (s.setY v).setY w = s.setY w := rfl
@[simp] theorem State.setY_self (s : State) : s.setY s.y = s := rfl

@[simp] theorem State.setSp_a (s : State) (v : Byte) : (s.setSp v).a = s.a := rfl
@[simp] theorem State.setSp_x (s : State) (v : Byte) : (s.setSp v).x = s.x := rfl
@[simp] theorem State.setSp_y (s : State) (v : Byte) : (s.setSp v).y = s.y := rfl
@[simp] theorem State.setSp_sp (s : State) (v : Byte) : (s.setSp v).sp = v := rfl
@[simp] theorem State.setSp_sr (s : State) (v : Byte) : (s.setSp v).sr = s.sr := rfl
@[simp] theorem State.setSp_pc (s : State) (v : Byte) : (s.setSp v).pc = s.pc := rfl
@[simp] theorem State.setSp_mem (s : State) (v : Byte) : (s.setSp v).mem = s.mem := rfl
@[simp] theorem State.setSp_cycles (s : State) (v : Byte) : (s.setSp v).cycles = s.cycles := rfl
@[simp] theorem State.setSp_report (s : State) (v : Byte) : (s.setSp v).report = s.report := rfl
@[simp] theorem State.setSp_accesses (s : State) (v : Byte) : (s.setSp v).accesses = s.accesses := rfl
@[simp] theorem State.setSp_setSp (s : State) (v w : Byte) : (s.setSp v).setSp w = s.setSp w := rfl
@[simp] theorem State.setSp_self (s : State) : s.setSp s.sp = s := rfl

@[simp] theorem State.setSr_a (s : State) (v : Byte) : (s.setSr v).a = s.a := rfl
@[simp] theorem State.setSr_x (s : State) (v : Byte) : (s.setSr v).x = s.x := rfl
@[simp] theorem State.setSr_y (s : State) (v : Byte) : (s.setSr v).y = s.y := rfl
@[simp] theorem State.setSr_sp (s : State) (v : Byte) : (s.setSr v).sp = s.sp := rfl
@[simp] theorem State.setSr_sr (s : State) (v : Byte) : (s.setSr v).sr = v := rfl
@[simp] theorem State.setSr_pc (s : State) (v : Byte) : (s.setSr v).pc = s.pc := rfl
@[simp] theorem State.setSr_mem (s : State) (v : Byte) : (s.setSr v).mem = s.mem := rfl
@[simp] theorem State.setSr_cycles (s : State) (v : Byte) : (s.setSr v).cycles = s.cycles := rfl
@[simp] theorem State.setSr_report (s : State) (v : Byte) : (s.setSr v).report = s.report := rfl
@[simp] theorem State.setSr_accesses (s : State) (v : Byte) : (s.setSr v).accesses = s.accesses := rfl
@[simp] theorem State.setSr_setSr (s : State) (v w : Byte) : (s.setSr v).setSr w = s.setSr w := rfl
@[simp] theorem State.setSr_self (s : State) : s.setSr s.sr = s := rfl

@[simp] theorem State.setPc_a (s : State) (v : Addr) : (s.setPc v).a = s.a := rfl
@[simp] theorem State.setPc_x (s : State) (v : Addr) : (s.setPc v).x = s.x := rfl
@[simp] theorem State.setPc_y (s : State) (v : Addr) : (s.setPc v).y = s.y := rfl
@[simp] theorem State.setPc_sp (s : State) (v : Addr) : (s.setPc v).sp = s.sp := rfl
@[simp] theorem State.setPc_sr (s : State) (v : Addr) : (s.setPc v).sr = s.sr := rfl
@[simp] theorem State.setPc_pc (s : State) (v : Addr) : (s.setPc v).pc = v := rfl
@[simp] theorem State.setPc_mem (s : State) (v : Addr) : (s.setPc v).mem = s.mem := rfl
@[simp] theorem State.setPc_cycles (s : State) (v : Addr) : (s.setPc v).cycles = s.cycles := rfl
@[simp] theorem State.setPc_report (s : State) (v : Addr) : (s.setPc v).report = s.report := rfl
@[simp] theorem State.setPc_accesses (s : State) (v : Addr) : (s.setPc v).accesses = s.accesses := rfl
@[simp] theorem State.setPc_setPc (s : State) (v w : Addr) : (s.setPc v).setPc w = s.setPc w := rfl
@[simp] theorem State.setPc_self (s : State) : s.setPc s.pc = s := rfl

@[simp] theorem State.setMem_a (s : State) (v : Memory) : (s.setMem v).a = s.a := rfl
@[simp] theorem State.setMem_x (s : State) (v : Memory) : (s.setMem v).x = s.x := rfl
@[simp] theorem State.setMem_y (s : State) (v : Memory) : (s.setMem v).y = s.y := rfl
@[simp] theorem State.setMem_sp (s : State) (v : Memory) : (s.setMem v).sp = s.sp := rfl
@[simp] theorem State.setMem_sr (s : State) (v : Memory) : (s.setMem v).sr = s.sr := rfl
@[simp] theorem State.setMem_pc (s : State) (v : Memory) : (s.setMem v).pc = s.pc := rfl
@[simp] theorem State.setMem_mem (s : State) (v : Memory) : (s.setMem v).mem = v := rfl
@[simp] theorem State.setMem_cycles (s : State) (v : Memory) : (s.setMem v).cycles = s.cycles := rfl
@[simp] theorem State.setMem_report (s : State) (v : Memory) : (s.setMem v).report = s.report := rfl
@[simp] theorem State.setMem_accesses (s : State) (v : Memory) : (s.setMem v).accesses = s.accesses := rfl
@[simp] theorem State.setMem_setMem (s : State) (v w : Memory) : (s.setMem v).setMem w = s.setMem w := rfl
@[simp] theorem State.setMem_self (s : State) : s.setMem s.mem = s := rfl

@[simp] theorem State.setCycles_a (s : State) (v : Option Nat) : (s.setCycles v).a = s.a := rfl
@[simp] theorem State.setCycles_x (s : State) (v : Option Nat) : (s.setCycles v).x = s.x := rfl
@[simp] theorem State.setCycles_y (s : State) (v : Option Nat) : (s.setCycles v).y = s.y := rfl
@[simp] theorem State.setCycles_sp (s : State) (v : Option Nat) : (s.setCycles v).sp = s.sp := rfl
@[simp] theorem State.setCycles_sr (s : State) (v : Option Nat) : (s.setCycles v).sr = s.sr := rfl
@[simp] theorem State.setCycles_pc (s : State) (v : Option Nat) : (s.setCycles v).pc = s.pc := rfl
@[simp] theorem State.setCycles_mem (s : State) (v : Option Nat) : (s.setCycles v).mem = s.mem := rfl
@[simp] theorem State.setCycles_cycles (s : State) (v : Option Nat) : (s.setCycles v).cycles = v := rfl
@[simp] theorem State.setCycles_report (s : State) (v : Option Nat) : (s.setCycles v).report = s.report := rfl
@[simp] theorem State.setCycles_accesses (s : State) (v : Option Nat) : (s.setCycles v).accesses = s.accesses := rfl
@[simp] theorem State.setCycles_setCycles (s : State) (v w : Option Nat) : (s.setCycles v).setCycles w = s.setCycles w := rfl
@[simp] theorem State.setCycles_self (s : State) : s.setCycles s.cycles = s := rfl

@[simp] theorem State.setReport_a (s : State) (v : Option IllegalReport) : (s.setReport v).a = s.a := rfl
@[simp] theorem State.setReport_x (s : State) (v : Option IllegalReport) : (s.setReport v).x = s.x := rfl
@[simp] theorem State.setReport_y (s : State) (v : Option IllegalReport) : (s.setReport v).y = s.y := rfl
@[simp] theorem State.setReport_sp (s : State) (v : Option IllegalReport) : (s.setReport v).sp = s.sp := rfl
@[simp] theorem State.setReport_sr (s : State) (v : Option IllegalReport) : (s.setReport v).sr = s.sr := rfl
@[simp] theorem State.setReport_pc (s : State) (v : Option IllegalReport) : (s.setReport v).pc = s.pc := rfl
@[simp] theorem State.setReport_mem (s : State) (v : Option IllegalReport) : (s.setReport v).mem = s.mem := rfl
@[simp] theorem State.setReport_cycles (s : State) (v : Option IllegalReport) : (s.setReport v).cycles = s.cycles := rfl
@[simp] theorem State.setReport_report (s : State) (v : Option IllegalReport) : (s.setReport v).report = v := rfl
@[simp] theorem State.setReport_accesses (s : State) (v : Option IllegalReport) : (s.setReport v).accesses = s.accesses := rfl
@[simp] theorem State.setReport_setReport (s : State) (v w : Option IllegalReport) : (s.setReport v).setReport w = s.setReport w := rfl
@[simp] theorem State.setReport_self (s : State) : s.setReport s.report = s := rfl

@[simp] theorem State.setAccesses_a (s : State) (v : List Access) : (s.setAccesses v).a = s.a := rfl
@[simp] theorem State.setAccesses_x (s : State) (v : List Access) : (s.setAccesses v).x = s.x := rfl
@[simp] theorem State.setAccesses_y (s : State) (v : List Access) : (s.setAccesses v).y = s.y := rfl
@[simp] theorem State.setAccesses_sp (s : State) (v : List Access) : (s.setAccesses v).sp = s.sp := rfl
@[simp] theorem State.setAccesses_sr (s : State) (v : List Access) : (s.setAccesses v).sr = s.sr := rfl
@[simp] theorem State.setAccesses_pc (s : State) (v : List Access) : (s.setAccesses v).pc = s.pc := rfl
@[simp] theorem State.setAccesses_mem (s : State) (v : List Access) : (s.setAccesses v).mem = s.mem := rfl
@[simp] theorem State.setAccesses_cycles (s : State) (v : List Access) : (s.setAccesses v).cycles = s.cycles := rfl
@[simp] theorem State.setAccesses_report (s : State) (v : List Access) : (s.setAccesses v).report = s.report := rfl
@[simp] theorem State.setAccesses_accesses (s : State) (v : List Access) : (s.setAccesses v).accesses = v := rfl
@[simp] theorem State.setAccesses_setAccesses (s : State) (v w : List Access) : (s.setAccesses v).setAccesses w = s.setAccesses w := rfl
@[simp] theorem State.setAccesses_self (s : State) : s.setAccesses s.accesses = s := rfl

/-- Two states with the same fields are the same state. -/
theorem State.eq_of_fields {s t : State} (ha : s.a = t.a) (hx : s.x = t.x) (hy : s.y = t.y) (hsp : s.sp = t.sp)
    (hsr : s.sr = t.sr) (hpc : s.pc = t.pc) (hm : s.mem = t.mem) (hc : s.cycles = t.cycles) (hr : s.report = t.report)
    (hl : s.accesses = t.accesses) : s = t := by
  cases s; cases t; simp_all

end Sys2Proof.Machine
end

