-- ==== Sys2Proof/Laws/Ops.lean ====
section
/-! SUPPORT. One lemma per shared operation that says everything it does: the answer as a record update of the state before. -/

namespace Sys2Proof.Machine

/-! ### The memory port -/

theorem logAccess_eq (e : Access) (s : State) : logAccess e s = { s with accesses := s.accesses ++ [e] } := rfl

@[simp] theorem memRead_fst (a : Addr) (s : State) : (memRead a s).1 = s.mem.read a := rfl

theorem memRead_snd (a : Addr) (s : State) :
    (memRead a s).2 = { s with accesses := s.accesses ++ [.read a (s.mem.read a)] } := rfl

theorem memWrite_eq (a : Addr) (v : Byte) (s : State) :
    memWrite a v s = { s with mem := s.mem.write a v, accesses := s.accesses ++ [.write a v] } := rfl

/-! ### The instruction stream -/

@[simp] theorem fetch8_fst (s : State) : (fetch8 s).1 = s.mem.read s.pc := rfl

theorem fetch8_snd (s : State) :
    (fetch8 s).2 = { s with pc := s.pc + 1#16, accesses := s.accesses ++ [.read s.pc (s.mem.read s.pc)] } := rfl

/-! ### The stack -/

theorem stackAddr_toNat (sp : Byte) : (stackAddr sp).toNat = 0x100 + sp.toNat := by
  simp [stackAddr, wordOf_toNat]

@[simp] theorem hiByte_stackAddr (sp : Byte) : hiByte (stackAddr sp) = 0x01#8 := hiByte_wordOf _ _

theorem stackAddr_inj {p q : Byte} (h : stackAddr p = stackAddr q) : p = q := (wordOf_inj h).2

theorem push8_eq (v : Byte) (s : State) :
    push8 v s = { s with sp := s.sp - 1#8, mem := s.mem.write (stackAddr s.sp) v,
                         accesses := s.accesses ++ [.write (stackAddr s.sp) v] } := rfl

@[simp] theorem pop8_fst (s : State) : (pop8 s).1 = s.mem.read (stackAddr (s.sp + 1#8)) := rfl

theorem pop8_snd (s : State) :
    (pop8 s).2 = { s with sp := s.sp + 1#8,
                          accesses := s.accesses ++ [.read (stackAddr (s.sp + 1#8)) (s.mem.read (stackAddr (s.sp + 1#8)))] } :=
  rfl

theorem pushAddr_eq (w : Addr) (s : State) :
    pushAddr w s = { s with
      sp := s.sp - 1#8 - 1#8
      mem := (s.mem.write (stackAddr s.sp) (hiByte w)).write (stackAddr (s.sp - 1#8)) (loByte w)
      accesses := s.accesses ++ [.write (stackAddr s.sp) (hiByte w), .write (stackAddr (s.sp - 1#8)) (loByte w)] } := by
  simp [pushAddr, push8_eq]

theorem popAddr_fst (s : State) :
    (popAddr s).1 = wordOf (s.mem.read (stackAddr (s.sp + 1#8 + 1#8))) (s.mem.read (stackAddr (s.sp + 1#8))) := rfl

theorem popAddr_snd (s : State) :
    (popAddr s).2 = { s with
      sp := s.sp + 1#8 + 1#8
      accesses := s.accesses ++ [.read (stackAddr (s.sp + 1#8)) (s.mem.read (stackAddr (s.sp + 1#8))),
        .read (stackAddr (s.sp + 1#8 + 1#8)) (s.mem.read (stackAddr (s.sp + 1#8 + 1#8)))] } := by
  simp [popAddr, pop8_snd]

/-! ### Trap entry and return -/

theorem stackAddr_ne_vectorLo (p : Byte) : brkVectorLo ≠ stackAddr p := fun h => by
  have := congrArg BitVec.toNat h
  rw [stackAddr_toNat] at this
  have hp := p.isLt
  simp [brkVectorLo] at this
  omega

theorem stackAddr_ne_vectorHi (p : Byte) : brkVectorHi ≠ stackAddr p := fun h => by
  have := congrArg BitVec.toNat h
  rw [stackAddr_toNat] at this
  have hp := p.isLt
  simp [brkVectorHi] at this
  omega

/-- Memory after the three pushes of trap entry. -/
def breakFrame (s : State) : Memory :=
  ((s.mem.write (stackAddr s.sp) (hiByte s.pc)).write (stackAddr (s.sp - 1#8)) (loByte s.pc)).write
    (stackAddr (s.sp - 1#8 - 1#8)) (s.sr ||| flagMask .b)

theorem breakFrame_read (s : State) (a : Addr) (h0 : a ≠ stackAddr s.sp) (h1 : a ≠ stackAddr (s.sp - 1#8))
    (h2 : a ≠ stackAddr (s.sp - 1#8 - 1#8)) : (breakFrame s).read a = s.mem.read a := by
  rw [breakFrame, Memory.read_write_other _ _ _ _ h2, Memory.read_write_other _ _ _ _ h1,
    Memory.read_write_other _ _ _ _ h0]

theorem breakFrame_wf (s : State) (h : s.mem.wf = true) : (breakFrame s).wf = true :=
  Memory.write_wf _ _ _ (Memory.write_wf _ _ _ (Memory.write_wf _ _ _ h))

/-- Trap entry, with the vector's bytes those of memory before the pushes (they go to another page). -/
theorem takeBreak_eq (s : State) :
    takeBreak s = { s with
      sp := s.sp - 1#8 - 1#8 - 1#8
      sr := putFlag .i true s.sr
      pc := wordOf (s.mem.read brkVectorHi) (s.mem.read brkVectorLo)
      mem := breakFrame s
      accesses := s.accesses ++ [.write (stackAddr s.sp) (hiByte s.pc), .write (stackAddr (s.sp - 1#8)) (loByte s.pc),
        .write (stackAddr (s.sp - 1#8 - 1#8)) (s.sr ||| flagMask .b), .read brkVectorLo (s.mem.read brkVectorLo),
        .read brkVectorHi (s.mem.read brkVectorHi)] } := by
  have hlo : (breakFrame s).read brkVectorLo = s.mem.read brkVectorLo :=
    breakFrame_read s _ (stackAddr_ne_vectorLo _) (stackAddr_ne_vectorLo _) (stackAddr_ne_vectorLo _)
  have hhi : (breakFrame s).read brkVectorHi = s.mem.read brkVectorHi :=
    breakFrame_read s _ (stackAddr_ne_vectorHi _) (stackAddr_ne_vectorHi _) (stackAddr_ne_vectorHi _)
  rw [← hlo, ← hhi]
  simp [takeBreak, pushAddr_eq, push8_eq, memRead_snd, updFlag, State.setSr, State.setPc, breakFrame]

theorem returnFromBreak_eq (s : State) :
    returnFromBreak s = { s with
      sp := s.sp + 1#8 + 1#8 + 1#8
      sr := s.mem.read (stackAddr (s.sp + 1#8))
      pc := wordOf (s.mem.read (stackAddr (s.sp + 1#8 + 1#8 + 1#8))) (s.mem.read (stackAddr (s.sp + 1#8 + 1#8)))
      accesses := s.accesses ++ [.read (stackAddr (s.sp + 1#8)) (s.mem.read (stackAddr (s.sp + 1#8))),
        .read (stackAddr (s.sp + 1#8 + 1#8)) (s.mem.read (stackAddr (s.sp + 1#8 + 1#8))),
        .read (stackAddr (s.sp + 1#8 + 1#8 + 1#8)) (s.mem.read (stackAddr (s.sp + 1#8 + 1#8 + 1#8)))] } := by
  simp [returnFromBreak, popAddr_fst, popAddr_snd, pop8_snd, State.setSr, State.setPc]

/-! ### Operand forms -/

theorem pointerRead_fst (p : Byte) (s : State) :
    (pointerRead p s).1 = wordOf (s.mem.read (zext16 (p + 1#8))) (s.mem.read (zext16 p)) := rfl

theorem pointerRead_snd (p : Byte) (s : State) :
    (pointerRead p s).2 = { s with accesses := s.accesses ++ pointerAccesses p s } := by
  simp [pointerRead, memRead_snd, pointerAccesses]

/-- An effective address changes nothing but the accesses made. -/
theorem effAddr_snd (m : MemOperand) (s : State) :
    (effAddr m s).2 = { s with accesses := s.accesses ++ pointerReads m s } := by
  cases m <;> simp [effAddr, pointerReads, pointerRead_snd]

/-- An operand read changes nothing but the accesses made. -/
theorem readSource_snd (src : Source) (s : State) :
    (readSource src s).2 = { s with accesses := s.accesses ++ sourceReads src s } := by
  cases src <;> simp [readSource, sourceReads, memRead_snd, effAddr_snd]

@[simp] theorem readSource_imm (v : Byte) (s : State) : (readSource (.imm v) s).1 = v := rfl

@[simp] theorem readSource_mem (m : MemOperand) (s : State) :
    (readSource (.mem m) s).1 = s.mem.read (effAddr m s).1 := by
  simp [readSource, effAddr_snd]

theorem storeTo_eq (m : MemOperand) (v : Byte) (s : State) :
    storeTo m v s = { s with mem := s.mem.write (effAddr m s).1 v,
                             accesses := s.accesses ++ (pointerReads m s ++ [.write (effAddr m s).1 v]) } := by
  simp [storeTo, memWrite_eq, effAddr_snd]

theorem indirectTarget_fst (p : Addr) (s : State) :
    (indirectTarget p s).1 = wordOf (s.mem.read (pointerHigh p)) (s.mem.read p) := rfl

theorem indirectTarget_snd (p : Addr) (s : State) :
    (indirectTarget p s).2 =
      { s with accesses := s.accesses ++ [.read p (s.mem.read p), .read (pointerHigh p) (s.mem.read (pointerHigh p))] } := by
  simp [indirectTarget, memRead_snd]

/-- Of memory the effective address depends on its pointer's bytes alone, and those are its pointer reads. -/
theorem effAddr_agree (mo : MemOperand) (s : State) (m : Memory)
    (h : ∀ a v, Access.read a v ∈ pointerReads mo s → m.read a = s.mem.read a) :
    (effAddr mo (s.setMem m)).1 = (effAddr mo s).1 ∧ pointerReads mo (s.setMem m) = pointerReads mo s := by
  cases mo <;> simp_all [effAddr, pointerRead_fst, pointerReads, pointerAccesses, or_imp, forall_and]

/-- Of memory an operand value depends on the bytes of its reads alone. -/
theorem readSource_agree (src : Source) (s : State) (m : Memory)
    (h : ∀ a v, Access.read a v ∈ sourceReads src s → m.read a = s.mem.read a) :
    (readSource src (s.setMem m)).1 = (readSource src s).1 ∧ sourceReads src (s.setMem m) = sourceReads src s := by
  cases src with
  | imm v => exact ⟨rfl, rfl⟩
  | mem mo =>
    obtain ⟨he, hp⟩ := effAddr_agree mo s m fun a v hr => h a v (by simp [sourceReads, hr])
    have hd := h (effAddr mo s).1 _ (by simp [sourceReads]; exact .inr rfl)
    simp [sourceReads, readSource_mem, he, hp, hd]

/-- The effective address depends on X, Y and memory alone. -/
theorem effAddr_congr (m : MemOperand) (s t : State) (hx : t.x = s.x) (hy : t.y = s.y) (hm : t.mem = s.mem) :
    (effAddr m t).1 = (effAddr m s).1 := by
  cases m <;> simp [effAddr, pointerRead_fst, hx, hy, hm]

end Sys2Proof.Machine
end

