-- ==== Sys2Proof/Laws/Families.lean ====
section
/-! SUPPORT. One lemma per shared meaning of a family: what it answers, as a record update of the state before. With the lemmas of
Laws/Ops.lean they are what a proof about `exec` cites instead of unfolding a meaning. -/

namespace Sys2Proof.Machine

theorem updNZ_eq (v : Byte) (s : State) : updNZ v s = { s with sr := setNZ v s.sr } := rfl

theorem updFlag_eq (f : Flag) (b : Bool) (s : State) : updFlag f b s = { s with sr := putFlag f b s.sr } := rfl

theorem loadA_eq (src : Source) (s : State) :
    loadA src s = { s with a := (readSource src s).1, sr := setNZ (readSource src s).1 s.sr,
                           accesses := s.accesses ++ sourceReads src s } := by
  simp [loadA, readSource_snd, updNZ, State.setA, State.setSr]

theorem loadX_eq (src : Source) (s : State) :
    loadX src s = { s with x := (readSource src s).1, sr := setNZ (readSource src s).1 s.sr,
                           accesses := s.accesses ++ sourceReads src s } := by
  simp [loadX, readSource_snd, updNZ, State.setX, State.setSr]

theorem loadY_eq (src : Source) (s : State) :
    loadY src s = { s with y := (readSource src s).1, sr := setNZ (readSource src s).1 s.sr,
                           accesses := s.accesses ++ sourceReads src s } := by
  simp [loadY, readSource_snd, updNZ, State.setY, State.setSr]

theorem pullA_eq (s : State) :
    pullA s = { s with
      a := s.mem.read (stackAddr (s.sp + 1#8))
      sp := s.sp + 1#8
      sr := setNZ (s.mem.read (stackAddr (s.sp + 1#8))) s.sr
      accesses := s.accesses ++ [.read (stackAddr (s.sp + 1#8)) (s.mem.read (stackAddr (s.sp + 1#8)))] } := rfl

theorem pullSr_eq (s : State) :
    pullSr s = { s with
      sp := s.sp + 1#8
      sr := s.mem.read (stackAddr (s.sp + 1#8))
      accesses := s.accesses ++ [.read (stackAddr (s.sp + 1#8)) (s.mem.read (stackAddr (s.sp + 1#8)))] } := rfl

theorem logicA_eq (f : Byte → Byte → Byte) (src : Source) (s : State) :
    logicA f src s = { s with a := f s.a (readSource src s).1, sr := setNZ (f s.a (readSource src s).1) s.sr,
                              accesses := s.accesses ++ sourceReads src s } := by
  simp [logicA, readSource_snd, updNZ, State.setA, State.setSr]

theorem bitTest_eq (src : Source) (s : State) :
    bitTest src s = { s with sr := bitTestFlags s.a (readSource src s).1 s.sr,
                             accesses := s.accesses ++ sourceReads src s } := by
  simp [bitTest, readSource_snd, State.setSr]

theorem modifyMem_eq (f : Byte → Byte) (m : MemOperand) (s : State) :
    modifyMem f m s = { s with
      mem := s.mem.write (effAddr m s).1 (f (s.mem.read (effAddr m s).1))
      sr := setNZ (f (s.mem.read (effAddr m s).1)) s.sr
      accesses := s.accesses ++ (pointerReads m s ++ [.read (effAddr m s).1 (s.mem.read (effAddr m s).1),
        .write (effAddr m s).1 (f (s.mem.read (effAddr m s).1))]) } := by
  simp [modifyMem, effAddr_snd, memRead_snd, memWrite_eq, updNZ, State.setSr]

theorem jumpIndirect_eq (p : Addr) (s : State) :
    jumpIndirect p s = { s with
      pc := wordOf (s.mem.read (pointerHigh p)) (s.mem.read p)
      accesses := s.accesses ++ [.read p (s.mem.read p), .read (pointerHigh p) (s.mem.read (pointerHigh p))] } := by
  simp [jumpIndirect, indirectTarget_fst, indirectTarget_snd, State.setPc]

theorem callSub_eq (w : Addr) (s : State) :
    callSub w s = { pushAddr (s.pc - 1#16) s with pc := w } := rfl

theorem returnSub_eq (s : State) :
    returnSub s = { (popAddr s).2 with pc := (popAddr s).1 + 1#16 } := rfl

theorem addA_eq (src : Source) (s : State) :
    addA src s = { s with
      a := (addWithCarry s.a (readSource src s).1 (getFlag .c s.sr)).value
      sr := addFlags (addWithCarry s.a (readSource src s).1 (getFlag .c s.sr)) s.sr
      accesses := s.accesses ++ sourceReads src s } := by
  simp [addA, readSource_snd, State.setA, State.setSr]

theorem subA_eq (src : Source) (s : State) :
    subA src s = { s with
      a := (subWithBorrow s.a (readSource src s).1 (getFlag .c s.sr)).value
      sr := addFlags (subWithBorrow s.a (readSource src s).1 (getFlag .c s.sr)) s.sr
      accesses := s.accesses ++ sourceReads src s } := by
  simp [subA, readSource_snd, State.setA, State.setSr]

theorem compareWith_eq (r : Byte) (src : Source) (s : State) :
    compareWith r src s = { s with sr := compareFlags r (readSource src s).1 s.sr,
                                   accesses := s.accesses ++ sourceReads src s } := by
  simp [compareWith, readSource_snd, State.setSr]

theorem shiftPlace_acc_eq (f : Byte → Bool → ShiftResult) (s : State) :
    shiftPlace f .acc s = { s with a := (f s.a (getFlag .c s.sr)).value,
                                   sr := shiftFlags (f s.a (getFlag .c s.sr)) s.sr } := rfl

theorem shiftPlace_mem_eq (f : Byte → Bool → ShiftResult) (m : MemOperand) (s : State) :
    shiftPlace f (.mem m) s = { s with
      mem := s.mem.write (effAddr m s).1 (f (s.mem.read (effAddr m s).1) (getFlag .c s.sr)).value
      sr := shiftFlags (f (s.mem.read (effAddr m s).1) (getFlag .c s.sr)) s.sr
      accesses := s.accesses ++ (pointerReads m s ++ [.read (effAddr m s).1 (s.mem.read (effAddr m s).1),
        .write (effAddr m s).1 (f (s.mem.read (effAddr m s).1) (getFlag .c s.sr)).value]) } := by
  simp [shiftPlace, effAddr_snd, memRead_snd, memWrite_eq, State.setSr]

theorem branchIf_eq (cond : Bool) (d : Byte) (s : State) :
    branchIf cond d s = { s with pc := if cond then s.pc + sext16 d else s.pc } := by
  cases cond <;> rfl

end Sys2Proof.Machine
end

