-- ==== Sys2Proof/Laws/Exec.lean ====
section
/-! SUPPORT. What executing an instruction is, said once by mnemonic and operand: `exec_eq` takes the 151 arms to the 56 mnemonics over the
shared meanings, so that a proof about instructions splits on mnemonics and cites the lemmas of Laws/Families.lean. -/

namespace Sys2Proof.Machine

/-- A meaning that takes a source, at an operand that is one. -/
def atSource (o : Operand) (f : Source → State → State) (s : State) : State :=
  match o.source? with
  | some src => f src s
  | none => s

/-- A meaning that takes a byte of memory, at an operand that is one. -/
def atMemory (o : Operand) (f : MemOperand → State → State) (s : State) : State :=
  match o.memory? with
  | some m => f m s
  | none => s

/-- A meaning that takes a place, at an operand that is one. -/
def atPlace (o : Operand) (f : Place → State → State) (s : State) : State :=
  match o.place? with
  | some p => f p s
  | none => s

/-- A branch on one flag. -/
def atRelative (o : Operand) (cond : Bool) (s : State) : State :=
  match o with
  | .relative d => branchIf cond d s
  | _ => s

/-- JMP by its operand. -/
def atJump (o : Operand) (s : State) : State :=
  match o with
  | .memory (.abs w) => s.setPc w
  | .indirect p => jumpIndirect p s
  | _ => s

/-- JSR by its operand. -/
def atCall (o : Operand) (s : State) : State :=
  match o with
  | .memory (.abs w) => callSub w s
  | _ => s

/-- The effect of a mnemonic with an operand, over the shared meanings. -/
def effect (n : Mnemonic) (o : Operand) (s : State) : State :=
  match n with
  | .lda => atSource o loadA s
  | .ldx => atSource o loadX s
  | .ldy => atSource o loadY s
  | .sta => atMemory o storeA s
  | .stx => atMemory o storeX s
  | .sty => atMemory o storeY s
  | .tax => updNZ s.a (s.setX s.a)
  | .txa => updNZ s.x (s.setA s.x)
  | .tay => updNZ s.a (s.setY s.a)
  | .tya => updNZ s.y (s.setA s.y)
  | .tsx => updNZ s.sp (s.setX s.sp)
  | .txs => s.setSp s.x
  | .pha => push8 s.a s
  | .php => push8 s.sr s
  | .pla => pullA s
  | .plp => pullSr s
  | .and => atSource o (logicA (fun a m => a &&& m)) s
  | .ora => atSource o (logicA (fun a m => a ||| m)) s
  | .eor => atSource o (logicA (fun a m => a ^^^ m)) s
  | .bit => atSource o bitTest s
  | .inc => atMemory o (modifyMem (fun v => v + 1#8)) s
  | .dec => atMemory o (modifyMem (fun v => v - 1#8)) s
  | .inx => updNZ (s.x + 1#8) (s.setX (s.x + 1#8))
  | .dex => updNZ (s.x - 1#8) (s.setX (s.x - 1#8))
  | .iny => updNZ (s.y + 1#8) (s.setY (s.y + 1#8))
  | .dey => updNZ (s.y - 1#8) (s.setY (s.y - 1#8))
  | .jmp => atJump o s
  | .jsr => atCall o s
  | .rts => returnSub s
  | .brk => takeBreak s
  | .nop => s
  | .rti => returnFromBreak s
  | .adc => atSource o addA s
  | .sbc => atSource o subA s
  | .cmp => atSource o (compareWith s.a) s
  | .cpx => atSource o (compareWith s.x) s
  | .cpy => atSource o (compareWith s.y) s
  | .asl => atPlace o (shiftPlace aslResult) s
  | .lsr => atPlace o (shiftPlace lsrResult) s
  | .rol => atPlace o (shiftPlace rolResult) s
  | .ror => atPlace o (shiftPlace rorResult) s
  | .bpl => atRelative o (!getFlag .n s.sr) s
  | .bmi => atRelative o (getFlag .n s.sr) s
  | .bvc => atRelative o (!getFlag .v s.sr) s
  | .bvs => atRelative o (getFlag .v s.sr) s
  | .bcc => atRelative o (!getFlag .c s.sr) s
  | .bcs => atRelative o (getFlag .c s.sr) s
  | .bne => atRelative o (!getFlag .z s.sr) s
  | .beq => atRelative o (getFlag .z s.sr) s
  | .clc => updFlag .c false s
  | .sec => updFlag .c true s
  | .cli => updFlag .i false s
  | .sei => updFlag .i true s
  | .clv => updFlag .v false s
  | .cld => updFlag .d false s
  | .sed => updFlag .d true s

/-- Every arm of `exec` is its mnemonic's effect at its operand. -/
theorem exec_eq (i : Instr) (s : State) : exec i s = .next (effect i.mnemonic i.operand s) := by
  cases i <;> rfl

theorem atSource_some (o : Operand) (f : Source → State → State) (s : State) (src : Source) (h : o.source? = some src) :
    atSource o f s = f src s := by
  simp only [atSource, h]

theorem atMemory_some (o : Operand) (f : MemOperand → State → State) (s : State) (m : MemOperand)
    (h : o.memory? = some m) : atMemory o f s = f m s := by
  simp only [atMemory, h]

theorem atPlace_some (o : Operand) (f : Place → State → State) (s : State) (p : Place) (h : o.place? = some p) :
    atPlace o f s = f p s := by
  simp only [atPlace, h]

end Sys2Proof.Machine
end

