-- ==== Sys2Proof/Laws/Fetch.lean ====
section
/-! SUPPORT. What the fetch of a step comes to, and the step over it. -/

namespace Sys2Proof.Machine

/-- The state a fetch leaves: PC past `n` bytes, the outputs of the last step gone, `l` the reads made, `c` the cycle output. -/
def fetchedState (n : Addr) (c : Option Nat) (l : List Access) (s : State) : State :=
  { s with pc := s.pc + n, cycles := c, report := none, accesses := l }

theorem fetchInstr_illegal (s : State) (h : lookupOpcode (s.mem.read s.pc) = none) :
    fetchInstr s = .illegal (s.mem.read s.pc) s.pc
      (fetchedState 1#16 none [.read s.pc (s.mem.read s.pc)] s) := by
  have h' : lookupOpcode (fetch8 (clearOutputs s)).1 = none := h
  unfold fetchInstr
  simp only [h']
  rfl

theorem fetchInstr_f1 (s : State) (row : Row) (i : Instr) (h : lookupOpcode (s.mem.read s.pc) = some row)
    (hf : row.form = .f1 i) :
    fetchInstr s = .legal i (fetchedState 1#16 (some row.cycles) [.read s.pc (s.mem.read s.pc)] s) := by
  have h' : lookupOpcode (fetch8 (clearOutputs s)).1 = some row := h
  unfold fetchInstr
  simp only [h', hf]
  rfl

theorem fetchInstr_f2 (s : State) (row : Row) (make : Byte → Instr) (h : lookupOpcode (s.mem.read s.pc) = some row)
    (hf : row.form = .f2 make) :
    fetchInstr s = .legal (make (s.mem.read (s.pc + 1#16)))
      (fetchedState 2#16 (some row.cycles)
        [.read s.pc (s.mem.read s.pc), .read (s.pc + 1#16) (s.mem.read (s.pc + 1#16))] s) := by
  have h' : lookupOpcode (fetch8 (clearOutputs s)).1 = some row := h
  have h2 : s.pc + 1#16 + 1#16 = s.pc + 2#16 := by rw [BitVec.add_assoc]; rfl
  unfold fetchInstr
  simp only [h', hf]
  simp [fetchOperands, fetch8_snd, fetchedState, clearOutputs, State.setCycles, State.setReport, State.setAccesses, h2]

theorem fetchInstr_f3 (s : State) (row : Row) (make : Addr → Instr) (h : lookupOpcode (s.mem.read s.pc) = some row)
    (hf : row.form = .f3 make) :
    fetchInstr s = .legal (make (wordOf (s.mem.read (s.pc + 2#16)) (s.mem.read (s.pc + 1#16))))
      (fetchedState 3#16 (some row.cycles)
        [.read s.pc (s.mem.read s.pc), .read (s.pc + 1#16) (s.mem.read (s.pc + 1#16)),
          .read (s.pc + 2#16) (s.mem.read (s.pc + 2#16))] s) := by
  have h' : lookupOpcode (fetch8 (clearOutputs s)).1 = some row := h
  have h2 : s.pc + 1#16 + 1#16 = s.pc + 2#16 := by rw [BitVec.add_assoc]; rfl
  have h3 : s.pc + 2#16 + 1#16 = s.pc + 3#16 := by rw [BitVec.add_assoc]; rfl
  unfold fetchInstr
  simp only [h', hf]
  simp [fetchOperands, fetch8_snd, fetchedState, clearOutputs, State.setCycles, State.setReport, State.setAccesses, h2, h3]

/-- Everything a fetch can be: an illegal opcode, or an instruction of one, two or three bytes. -/
theorem fetchInstr_cases (s : State) :
    (lookupOpcode (s.mem.read s.pc) = none ∧
      fetchInstr s = .illegal (s.mem.read s.pc) s.pc (fetchedState 1#16 none [.read s.pc (s.mem.read s.pc)] s)) ∨
    ∃ row i n l, lookupOpcode (s.mem.read s.pc) = some row ∧
      fetchInstr s = .legal i (fetchedState n (some row.cycles) (.read s.pc (s.mem.read s.pc) :: l) s) ∧
      l.length ≤ 2 ∧ ∀ e ∈ l, ∃ a, e = .read a (s.mem.read a) := by
  rcases h : lookupOpcode (s.mem.read s.pc) with _ | row
  · exact .inl ⟨rfl, fetchInstr_illegal s h⟩
  · right
    rcases hf : row.form with i | make | make
    · exact ⟨row, i, _, [], rfl, fetchInstr_f1 s row i h hf, by simp, by simp⟩
    · exact ⟨row, _, _, _, rfl, fetchInstr_f2 s row make h hf, by simp, by simp⟩
    · exact ⟨row, _, _, _, rfl, fetchInstr_f3 s row make h hf, by simp, by simp⟩

theorem step_legal (s s' : State) (i : Instr) (h : fetchInstr s = .legal i s') : step s = exec i s' := by
  simp only [step, h]

theorem step_illegal (s : State) (h : lookupOpcode (s.mem.read s.pc) = none) :
    step s = .next { s with pc := s.pc + 1#16, cycles := none, report := some ⟨s.mem.read s.pc, s.pc⟩,
                            accesses := [.read s.pc (s.mem.read s.pc)] } := by
  simp only [step, fetchInstr_illegal s h]
  rfl

end Sys2Proof.Machine
end

