-- ==== Sys2Proof/Laws/PerInstr.lean ====
section
/-! SUPPORT. Statements made of every instruction as syntax, one lemma per constructor. `Shape`: the instruction is one of the dispatch
table's forms, and its encoding has the length its addressing mode gives (30_encoding.md R57). `Listed`: its row of the dispatch table,
and what its operand bytes complete there. -/

namespace Sys2Proof.Laws

/-- The shape of an instruction (30_encoding.md R56, R57). -/
def Shape.Statement (i : Instr) : Prop :=
  i.wellFormed = true ∧ (encode i).length = i.length

theorem Shape.ldaImm (v : Byte) : Shape.Statement (.ldaImm v) := ⟨rfl, rfl⟩
theorem Shape.ldaZp (z : Byte) : Shape.Statement (.ldaZp z) := ⟨rfl, rfl⟩
theorem Shape.ldaZpx (z : Byte) : Shape.Statement (.ldaZpx z) := ⟨rfl, rfl⟩
theorem Shape.ldaAbs (w : Addr) : Shape.Statement (.ldaAbs w) := ⟨rfl, rfl⟩
theorem Shape.ldaAbsx (w : Addr) : Shape.Statement (.ldaAbsx w) := ⟨rfl, rfl⟩
theorem Shape.ldaAbsy (w : Addr) : Shape.Statement (.ldaAbsy w) := ⟨rfl, rfl⟩
theorem Shape.ldaIndx (z : Byte) : Shape.Statement (.ldaIndx z) := ⟨rfl, rfl⟩
theorem Shape.ldaIndy (z : Byte) : Shape.Statement (.ldaIndy z) := ⟨rfl, rfl⟩
theorem Shape.ldxImm (v : Byte) : Shape.Statement (.ldxImm v) := ⟨rfl, rfl⟩
theorem Shape.ldxZp (z : Byte) : Shape.Statement (.ldxZp z) := ⟨rfl, rfl⟩
theorem Shape.ldxZpy (z : Byte) : Shape.Statement (.ldxZpy z) := ⟨rfl, rfl⟩
theorem Shape.ldxAbs (w : Addr) : Shape.Statement (.ldxAbs w) := ⟨rfl, rfl⟩
theorem Shape.ldxAbsy (w : Addr) : Shape.Statement (.ldxAbsy w) := ⟨rfl, rfl⟩
theorem Shape.ldyImm (v : Byte) : Shape.Statement (.ldyImm v) := ⟨rfl, rfl⟩
theorem Shape.ldyZp (z : Byte) : Shape.Statement (.ldyZp z) := ⟨rfl, rfl⟩
theorem Shape.ldyZpx (z : Byte) : Shape.Statement (.ldyZpx z) := ⟨rfl, rfl⟩
theorem Shape.ldyAbs (w : Addr) : Shape.Statement (.ldyAbs w) := ⟨rfl, rfl⟩
theorem Shape.ldyAbsx (w : Addr) : Shape.Statement (.ldyAbsx w) := ⟨rfl, rfl⟩
theorem Shape.staZp (z : Byte) : Shape.Statement (.staZp z) := ⟨rfl, rfl⟩
theorem Shape.staZpx (z : Byte) : Shape.Statement (.staZpx z) := ⟨rfl, rfl⟩
theorem Shape.staAbs (w : Addr) : Shape.Statement (.staAbs w) := ⟨rfl, rfl⟩
theorem Shape.staAbsx (w : Addr) : Shape.Statement (.staAbsx w) := ⟨rfl, rfl⟩
theorem Shape.staAbsy (w : Addr) : Shape.Statement (.staAbsy w) := ⟨rfl, rfl⟩
theorem Shape.staIndx (z : Byte) : Shape.Statement (.staIndx z) := ⟨rfl, rfl⟩
theorem Shape.staIndy (z : Byte) : Shape.Statement (.staIndy z) := ⟨rfl, rfl⟩
theorem Shape.stxZp (z : Byte) : Shape.Statement (.stxZp z) := ⟨rfl, rfl⟩
theorem Shape.stxZpy (z : Byte) : Shape.Statement (.stxZpy z) := ⟨rfl, rfl⟩
theorem Shape.stxAbs (w : Addr) : Shape.Statement (.stxAbs w) := ⟨rfl, rfl⟩
theorem Shape.styZp (z : Byte) : Shape.Statement (.styZp z) := ⟨rfl, rfl⟩
theorem Shape.styZpx (z : Byte) : Shape.Statement (.styZpx z) := ⟨rfl, rfl⟩
theorem Shape.styAbs (w : Addr) : Shape.Statement (.styAbs w) := ⟨rfl, rfl⟩
theorem Shape.tax : Shape.Statement (.tax) := ⟨rfl, rfl⟩
theorem Shape.txa : Shape.Statement (.txa) := ⟨rfl, rfl⟩
theorem Shape.tay : Shape.Statement (.tay) := ⟨rfl, rfl⟩
theorem Shape.tya : Shape.Statement (.tya) := ⟨rfl, rfl⟩
theorem Shape.tsx : Shape.Statement (.tsx) := ⟨rfl, rfl⟩
theorem Shape.txs : Shape.Statement (.txs) := ⟨rfl, rfl⟩
theorem Shape.pha : Shape.Statement (.pha) := ⟨rfl, rfl⟩
theorem Shape.php : Shape.Statement (.php) := ⟨rfl, rfl⟩
theorem Shape.pla : Shape.Statement (.pla) := ⟨rfl, rfl⟩
theorem Shape.plp : Shape.Statement (.plp) := ⟨rfl, rfl⟩
theorem Shape.andImm (v : Byte) : Shape.Statement (.andImm v) := ⟨rfl, rfl⟩
theorem Shape.andZp (z : Byte) : Shape.Statement (.andZp z) := ⟨rfl, rfl⟩
theorem Shape.andZpx (z : Byte) : Shape.Statement (.andZpx z) := ⟨rfl, rfl⟩
theorem Shape.andAbs (w : Addr) : Shape.Statement (.andAbs w) := ⟨rfl, rfl⟩
theorem Shape.andAbsx (w : Addr) : Shape.Statement (.andAbsx w) := ⟨rfl, rfl⟩
theorem Shape.andAbsy (w : Addr) : Shape.Statement (.andAbsy w) := ⟨rfl, rfl⟩
theorem Shape.andIndx (z : Byte) : Shape.Statement (.andIndx z) := ⟨rfl, rfl⟩
theorem Shape.andIndy (z : Byte) : Shape.Statement (.andIndy z) := ⟨rfl, rfl⟩
theorem Shape.oraImm (v : Byte) : Shape.Statement (.oraImm v) := ⟨rfl, rfl⟩
theorem Shape.oraZp (z : Byte) : Shape.Statement (.oraZp z) := ⟨rfl, rfl⟩
theorem Shape.oraZpx (z : Byte) : Shape.Statement (.oraZpx z) := ⟨rfl, rfl⟩
theorem Shape.oraAbs (w : Addr) : Shape.Statement (.oraAbs w) := ⟨rfl, rfl⟩
theorem Shape.oraAbsx (w : Addr) : Shape.Statement (.oraAbsx w) := ⟨rfl, rfl⟩
theorem Shape.oraAbsy (w : Addr) : Shape.Statement (.oraAbsy w) := ⟨rfl, rfl⟩
theorem Shape.oraIndx (z : Byte) : Shape.Statement (.oraIndx z) := ⟨rfl, rfl⟩
theorem Shape.oraIndy (z : Byte) : Shape.Statement (.oraIndy z) := ⟨rfl, rfl⟩
theorem Shape.eorImm (v : Byte) : Shape.Statement (.eorImm v) := ⟨rfl, rfl⟩
theorem Shape.eorZp (z : Byte) : Shape.Statement (.eorZp z) := ⟨rfl, rfl⟩
theorem Shape.eorZpx (z : Byte) : Shape.Statement (.eorZpx z) := ⟨rfl, rfl⟩
theorem Shape.eorAbs (w : Addr) : Shape.Statement (.eorAbs w) := ⟨rfl, rfl⟩
theorem Shape.eorAbsx (w : Addr) : Shape.Statement (.eorAbsx w) := ⟨rfl, rfl⟩
theorem Shape.eorAbsy (w : Addr) : Shape.Statement (.eorAbsy w) := ⟨rfl, rfl⟩
theorem Shape.eorIndx (z : Byte) : Shape.Statement (.eorIndx z) := ⟨rfl, rfl⟩
theorem Shape.eorIndy (z : Byte) : Shape.Statement (.eorIndy z) := ⟨rfl, rfl⟩
theorem Shape.bitZp (z : Byte) : Shape.Statement (.bitZp z) := ⟨rfl, rfl⟩
theorem Shape.bitAbs (w : Addr) : Shape.Statement (.bitAbs w) := ⟨rfl, rfl⟩
theorem Shape.incZp (z : Byte) : Shape.Statement (.incZp z) := ⟨rfl, rfl⟩
theorem Shape.incZpx (z : Byte) : Shape.Statement (.incZpx z) := ⟨rfl, rfl⟩
theorem Shape.incAbs (w : Addr) : Shape.Statement (.incAbs w) := ⟨rfl, rfl⟩
theorem Shape.incAbsx (w : Addr) : Shape.Statement (.incAbsx w) := ⟨rfl, rfl⟩
theorem Shape.decZp (z : Byte) : Shape.Statement (.decZp z) := ⟨rfl, rfl⟩
theorem Shape.decZpx (z : Byte) : Shape.Statement (.decZpx z) := ⟨rfl, rfl⟩
theorem Shape.decAbs (w : Addr) : Shape.Statement (.decAbs w) := ⟨rfl, rfl⟩
theorem Shape.decAbsx (w : Addr) : Shape.Statement (.decAbsx w) := ⟨rfl, rfl⟩
theorem Shape.inx : Shape.Statement (.inx) := ⟨rfl, rfl⟩
theorem Shape.dex : Shape.Statement (.dex) := ⟨rfl, rfl⟩
theorem Shape.iny : Shape.Statement (.iny) := ⟨rfl, rfl⟩
theorem Shape.dey : Shape.Statement (.dey) := ⟨rfl, rfl⟩
theorem Shape.jmpAbs (w : Addr) : Shape.Statement (.jmpAbs w) := ⟨rfl, rfl⟩
theorem Shape.jmpInd (p : Addr) : Shape.Statement (.jmpInd p) := ⟨rfl, rfl⟩
theorem Shape.jsr (w : Addr) : Shape.Statement (.jsr w) := ⟨rfl, rfl⟩
theorem Shape.rts : Shape.Statement (.rts) := ⟨rfl, rfl⟩
theorem Shape.brk : Shape.Statement (.brk) := ⟨rfl, rfl⟩
theorem Shape.nop : Shape.Statement (.nop) := ⟨rfl, rfl⟩
theorem Shape.rti : Shape.Statement (.rti) := ⟨rfl, rfl⟩
theorem Shape.adcImm (v : Byte) : Shape.Statement (.adcImm v) := ⟨rfl, rfl⟩
theorem Shape.adcZp (z : Byte) : Shape.Statement (.adcZp z) := ⟨rfl, rfl⟩
theorem Shape.adcZpx (z : Byte) : Shape.Statement (.adcZpx z) := ⟨rfl, rfl⟩
theorem Shape.adcAbs (w : Addr) : Shape.Statement (.adcAbs w) := ⟨rfl, rfl⟩
theorem Shape.adcAbsx (w : Addr) : Shape.Statement (.adcAbsx w) := ⟨rfl, rfl⟩
theorem Shape.adcAbsy (w : Addr) : Shape.Statement (.adcAbsy w) := ⟨rfl, rfl⟩
theorem Shape.adcIndx (z : Byte) : Shape.Statement (.adcIndx z) := ⟨rfl, rfl⟩
theorem Shape.adcIndy (z : Byte) : Shape.Statement (.adcIndy z) := ⟨rfl, rfl⟩
theorem Shape.sbcImm (v : Byte) : Shape.Statement (.sbcImm v) := ⟨rfl, rfl⟩
theorem Shape.sbcZp (z : Byte) : Shape.Statement (.sbcZp z) := ⟨rfl, rfl⟩
theorem Shape.sbcZpx (z : Byte) : Shape.Statement (.sbcZpx z) := ⟨rfl, rfl⟩
theorem Shape.sbcAbs (w : Addr) : Shape.Statement (.sbcAbs w) := ⟨rfl, rfl⟩
theorem Shape.sbcAbsx (w : Addr) : Shape.Statement (.sbcAbsx w) := ⟨rfl, rfl⟩
theorem Shape.sbcAbsy (w : Addr) : Shape.Statement (.sbcAbsy w) := ⟨rfl, rfl⟩
theorem Shape.sbcIndx (z : Byte) : Shape.Statement (.sbcIndx z) := ⟨rfl, rfl⟩
theorem Shape.sbcIndy (z : Byte) : Shape.Statement (.sbcIndy z) := ⟨rfl, rfl⟩
theorem Shape.cmpImm (v : Byte) : Shape.Statement (.cmpImm v) := ⟨rfl, rfl⟩
theorem Shape.cmpZp (z : Byte) : Shape.Statement (.cmpZp z) := ⟨rfl, rfl⟩
theorem Shape.cmpZpx (z : Byte) : Shape.Statement (.cmpZpx z) := ⟨rfl, rfl⟩
theorem Shape.cmpAbs (w : Addr) : Shape.Statement (.cmpAbs w) := ⟨rfl, rfl⟩
theorem Shape.cmpAbsx (w : Addr) : Shape.Statement (.cmpAbsx w) := ⟨rfl, rfl⟩
theorem Shape.cmpAbsy (w : Addr) : Shape.Statement (.cmpAbsy w) := ⟨rfl, rfl⟩
theorem Shape.cmpIndx (z : Byte) : Shape.Statement (.cmpIndx z) := ⟨rfl, rfl⟩
theorem Shape.cmpIndy (z : Byte) : Shape.Statement (.cmpIndy z) := ⟨rfl, rfl⟩
theorem Shape.cpxImm (v : Byte) : Shape.Statement (.cpxImm v) := ⟨rfl, rfl⟩
theorem Shape.cpxZp (z : Byte) : Shape.Statement (.cpxZp z) := ⟨rfl, rfl⟩
theorem Shape.cpxAbs (w : Addr) : Shape.Statement (.cpxAbs w) := ⟨rfl, rfl⟩
theorem Shape.cpyImm (v : Byte) : Shape.Statement (.cpyImm v) := ⟨rfl, rfl⟩
theorem Shape.cpyZp (z : Byte) : Shape.Statement (.cpyZp z) := ⟨rfl, rfl⟩
theorem Shape.cpyAbs (w : Addr) : Shape.Statement (.cpyAbs w) := ⟨rfl, rfl⟩
theorem Shape.aslAcc : Shape.Statement (.aslAcc) := ⟨rfl, rfl⟩
theorem Shape.aslZp (z : Byte) : Shape.Statement (.aslZp z) := ⟨rfl, rfl⟩
theorem Shape.aslZpx (z : Byte) : Shape.Statement (.aslZpx z) := ⟨rfl, rfl⟩
theorem Shape.aslAbs (w : Addr) : Shape.Statement (.aslAbs w) := ⟨rfl, rfl⟩
theorem Shape.aslAbsx (w : Addr) : Shape.Statement (.aslAbsx w) := ⟨rfl, rfl⟩
theorem Shape.lsrAcc : Shape.Statement (.lsrAcc) := ⟨rfl, rfl⟩
theorem Shape.lsrZp (z : Byte) : Shape.Statement (.lsrZp z) := ⟨rfl, rfl⟩
theorem Shape.lsrZpx (z : Byte) : Shape.Statement (.lsrZpx z) := ⟨rfl, rfl⟩
theorem Shape.lsrAbs (w : Addr) : Shape.Statement (.lsrAbs w) := ⟨rfl, rfl⟩
theorem Shape.lsrAbsx (w : Addr) : Shape.Statement (.lsrAbsx w) := ⟨rfl, rfl⟩
theorem Shape.rolAcc : Shape.Statement (.rolAcc) := ⟨rfl, rfl⟩
theorem Shape.rolZp (z : Byte) : Shape.Statement (.rolZp z) := ⟨rfl, rfl⟩
theorem Shape.rolZpx (z : Byte) : Shape.Statement (.rolZpx z) := ⟨rfl, rfl⟩
theorem Shape.rolAbs (w : Addr) : Shape.Statement (.rolAbs w) := ⟨rfl, rfl⟩
theorem Shape.rolAbsx (w : Addr) : Shape.Statement (.rolAbsx w) := ⟨rfl, rfl⟩
theorem Shape.rorAcc : Shape.Statement (.rorAcc) := ⟨rfl, rfl⟩
theorem Shape.rorZp (z : Byte) : Shape.Statement (.rorZp z) := ⟨rfl, rfl⟩
theorem Shape.rorZpx (z : Byte) : Shape.Statement (.rorZpx z) := ⟨rfl, rfl⟩
theorem Shape.rorAbs (w : Addr) : Shape.Statement (.rorAbs w) := ⟨rfl, rfl⟩
theorem Shape.rorAbsx (w : Addr) : Shape.Statement (.rorAbsx w) := ⟨rfl, rfl⟩
theorem Shape.bpl (d : Byte) : Shape.Statement (.bpl d) := ⟨rfl, rfl⟩
theorem Shape.bmi (d : Byte) : Shape.Statement (.bmi d) := ⟨rfl, rfl⟩
theorem Shape.bvc (d : Byte) : Shape.Statement (.bvc d) := ⟨rfl, rfl⟩
theorem Shape.bvs (d : Byte) : Shape.Statement (.bvs d) := ⟨rfl, rfl⟩
theorem Shape.bcc (d : Byte) : Shape.Statement (.bcc d) := ⟨rfl, rfl⟩
theorem Shape.bcs (d : Byte) : Shape.Statement (.bcs d) := ⟨rfl, rfl⟩
theorem Shape.bne (d : Byte) : Shape.Statement (.bne d) := ⟨rfl, rfl⟩
theorem Shape.beq (d : Byte) : Shape.Statement (.beq d) := ⟨rfl, rfl⟩
theorem Shape.clc : Shape.Statement (.clc) := ⟨rfl, rfl⟩
theorem Shape.sec : Shape.Statement (.sec) := ⟨rfl, rfl⟩
theorem Shape.cli : Shape.Statement (.cli) := ⟨rfl, rfl⟩
theorem Shape.sei : Shape.Statement (.sei) := ⟨rfl, rfl⟩
theorem Shape.clv : Shape.Statement (.clv) := ⟨rfl, rfl⟩
theorem Shape.cld : Shape.Statement (.cld) := ⟨rfl, rfl⟩
theorem Shape.sed : Shape.Statement (.sed) := ⟨rfl, rfl⟩

/-- The row of an instruction in the dispatch table (30_encoding.md R58, R72), at an index of the table. -/
def Listed.Statement (i : Instr) : Prop :=
  ∃ (k : Nat) (row : Row), opcodeTable[k]? = some row ∧ row.opcode = i.opcode ∧ row.form.length = i.length ∧
    ∀ rest, completeForm i.opcode row.form (i.operand.bytes ++ rest) = .instr i rest

theorem Listed.ldaImm (v : Byte) : Listed.Statement (.ldaImm v) := ⟨97, _, rfl, rfl, rfl, fun _ => rfl⟩
theorem Listed.ldaZp (z : Byte) : Listed.Statement (.ldaZp z) := ⟨94, _, rfl, rfl, rfl, fun _ => rfl⟩
theorem Listed.ldaZpx (z : Byte) : Listed.Statement (.ldaZpx z) := ⟨105, _, rfl, rfl, rfl, fun _ => rfl⟩
theorem Listed.ldaAbs (w : Addr) : Listed.Statement (.ldaAbs w) := ⟨100, _, rfl, rfl, rfl, completeForm_f3 _ _ w⟩
theorem Listed.ldaAbsx (w : Addr) : Listed.Statement (.ldaAbsx w) := ⟨111, _, rfl, rfl, rfl, completeForm_f3 _ _ w⟩
theorem Listed.ldaAbsy (w : Addr) : Listed.Statement (.ldaAbsy w) := ⟨108, _, rfl, rfl, rfl, completeForm_f3 _ _ w⟩
theorem Listed.ldaIndx (z : Byte) : Listed.Statement (.ldaIndx z) := ⟨91, _, rfl, rfl, rfl, fun _ => rfl⟩
theorem Listed.ldaIndy (z : Byte) : Listed.Statement (.ldaIndy z) := ⟨103, _, rfl, rfl, rfl, fun _ => rfl⟩
theorem Listed.ldxImm (v : Byte) : Listed.Statement (.ldxImm v) := ⟨92, _, rfl, rfl, rfl, fun _ => rfl⟩
theorem Listed.ldxZp (z : Byte) : Listed.Statement (.ldxZp z) := ⟨95, _, rfl, rfl, rfl, fun _ => rfl⟩
theorem Listed.ldxZpy (z : Byte) : Listed.Statement (.ldxZpy z) := ⟨106, _, rfl, rfl, rfl, fun _ => rfl⟩
theorem Listed.ldxAbs (w : Addr) : Listed.Statement (.ldxAbs w) := ⟨101, _, rfl, rfl, rfl, completeForm_f3 _ _ w⟩
theorem Listed.ldxAbsy (w : Addr) : Listed.Statement (.ldxAbsy w) := ⟨112, _, rfl, rfl, rfl, completeForm_f3 _ _ w⟩
theorem Listed.ldyImm (v : Byte) : Listed.Statement (.ldyImm v) := ⟨90, _, rfl, rfl, rfl, fun _ => rfl⟩
theorem Listed.ldyZp (z : Byte) : Listed.Statement (.ldyZp z) := ⟨93, _, rfl, rfl, rfl, fun _ => rfl⟩
theorem Listed.ldyZpx (z : Byte) : Listed.Statement (.ldyZpx z) := ⟨104, _, rfl, rfl, rfl, fun _ => rfl⟩
theorem Listed.ldyAbs (w : Addr) : Listed.Statement (.ldyAbs w) := ⟨99, _, rfl, rfl, rfl, completeForm_f3 _ _ w⟩
theorem Listed.ldyAbsx (w : Addr) : Listed.Statement (.ldyAbsx w) := ⟨110, _, rfl, rfl, rfl, completeForm_f3 _ _ w⟩
theorem Listed.staZp (z : Byte) : Listed.Statement (.staZp z) := ⟨74, _, rfl, rfl, rfl, fun _ => rfl⟩
theorem Listed.staZpx (z : Byte) : Listed.Statement (.staZpx z) := ⟨84, _, rfl, rfl, rfl, fun _ => rfl⟩
theorem Listed.staAbs (w : Addr) : Listed.Statement (.staAbs w) := ⟨79, _, rfl, rfl, rfl, completeForm_f3 _ _ w⟩
theorem Listed.staAbsx (w : Addr) : Listed.Statement (.staAbsx w) := ⟨89, _, rfl, rfl, rfl, completeForm_f3 _ _ w⟩
theorem Listed.staAbsy (w : Addr) : Listed.Statement (.staAbsy w) := ⟨87, _, rfl, rfl, rfl, completeForm_f3 _ _ w⟩
theorem Listed.staIndx (z : Byte) : Listed.Statement (.staIndx z) := ⟨72, _, rfl, rfl, rfl, fun _ => rfl⟩
theorem Listed.staIndy (z : Byte) : Listed.Statement (.staIndy z) := ⟨82, _, rfl, rfl, rfl, fun _ => rfl⟩
theorem Listed.stxZp (z : Byte) : Listed.Statement (.stxZp z) := ⟨75, _, rfl, rfl, rfl, fun _ => rfl⟩
theorem Listed.stxZpy (z : Byte) : Listed.Statement (.stxZpy z) := ⟨85, _, rfl, rfl, rfl, fun _ => rfl⟩
theorem Listed.stxAbs (w : Addr) : Listed.Statement (.stxAbs w) := ⟨80, _, rfl, rfl, rfl, completeForm_f3 _ _ w⟩
theorem Listed.styZp (z : Byte) : Listed.Statement (.styZp z) := ⟨73, _, rfl, rfl, rfl, fun _ => rfl⟩
theorem Listed.styZpx (z : Byte) : Listed.Statement (.styZpx z) := ⟨83, _, rfl, rfl, rfl, fun _ => rfl⟩
theorem Listed.styAbs (w : Addr) : Listed.Statement (.styAbs w) := ⟨78, _, rfl, rfl, rfl, completeForm_f3 _ _ w⟩
theorem Listed.tax : Listed.Statement (.tax) := ⟨98, _, rfl, rfl, rfl, fun _ => rfl⟩
theorem Listed.txa : Listed.Statement (.txa) := ⟨77, _, rfl, rfl, rfl, fun _ => rfl⟩
theorem Listed.tay : Listed.Statement (.tay) := ⟨96, _, rfl, rfl, rfl, fun _ => rfl⟩
theorem Listed.tya : Listed.Statement (.tya) := ⟨86, _, rfl, rfl, rfl, fun _ => rfl⟩
theorem Listed.tsx : Listed.Statement (.tsx) := ⟨109, _, rfl, rfl, rfl, fun _ => rfl⟩
theorem Listed.txs : Listed.Statement (.txs) := ⟨88, _, rfl, rfl, rfl, fun _ => rfl⟩
theorem Listed.pha : Listed.Statement (.pha) := ⟨40, _, rfl, rfl, rfl, fun _ => rfl⟩
theorem Listed.php : Listed.Statement (.php) := ⟨4, _, rfl, rfl, rfl, fun _ => rfl⟩
theorem Listed.pla : Listed.Statement (.pla) := ⟨58, _, rfl, rfl, rfl, fun _ => rfl⟩
theorem Listed.plp : Listed.Statement (.plp) := ⟨22, _, rfl, rfl, rfl, fun _ => rfl⟩
theorem Listed.andImm (v : Byte) : Listed.Statement (.andImm v) := ⟨23, _, rfl, rfl, rfl, fun _ => rfl⟩
theorem Listed.andZp (z : Byte) : Listed.Statement (.andZp z) := ⟨20, _, rfl, rfl, rfl, fun _ => rfl⟩
theorem Listed.andZpx (z : Byte) : Listed.Statement (.andZpx z) := ⟨30, _, rfl, rfl, rfl, fun _ => rfl⟩
theorem Listed.andAbs (w : Addr) : Listed.Statement (.andAbs w) := ⟨26, _, rfl, rfl, rfl, completeForm_f3 _ _ w⟩
theorem Listed.andAbsx (w : Addr) : Listed.Statement (.andAbsx w) := ⟨34, _, rfl, rfl, rfl, completeForm_f3 _ _ w⟩
theorem Listed.andAbsy (w : Addr) : Listed.Statement (.andAbsy w) := ⟨33, _, rfl, rfl, rfl, completeForm_f3 _ _ w⟩
theorem Listed.andIndx (z : Byte) : Listed.Statement (.andIndx z) := ⟨18, _, rfl, rfl, rfl, fun _ => rfl⟩
theorem Listed.andIndy (z : Byte) : Listed.Statement (.andIndy z) := ⟨29, _, rfl, rfl, rfl, fun _ => rfl⟩
theorem Listed.oraImm (v : Byte) : Listed.Statement (.oraImm v) := ⟨5, _, rfl, rfl, rfl, fun _ => rfl⟩
theorem Listed.oraZp (z : Byte) : Listed.Statement (.oraZp z) := ⟨2, _, rfl, rfl, rfl, fun _ => rfl⟩
theorem Listed.oraZpx (z : Byte) : Listed.Statement (.oraZpx z) := ⟨11, _, rfl, rfl, rfl, fun _ => rfl⟩
theorem Listed.oraAbs (w : Addr) : Listed.Statement (.oraAbs w) := ⟨7, _, rfl, rfl, rfl, completeForm_f3 _ _ w⟩
theorem Listed.oraAbsx (w : Addr) : Listed.Statement (.oraAbsx w) := ⟨15, _, rfl, rfl, rfl, completeForm_f3 _ _ w⟩
theorem Listed.oraAbsy (w : Addr) : Listed.Statement (.oraAbsy w) := ⟨14, _, rfl, rfl, rfl, completeForm_f3 _ _ w⟩
theorem Listed.oraIndx (z : Byte) : Listed.Statement (.oraIndx z) := ⟨1, _, rfl, rfl, rfl, fun _ => rfl⟩
theorem Listed.oraIndy (z : Byte) : Listed.Statement (.oraIndy z) := ⟨10, _, rfl, rfl, rfl, fun _ => rfl⟩
theorem Listed.eorImm (v : Byte) : Listed.Statement (.eorImm v) := ⟨41, _, rfl, rfl, rfl, fun _ => rfl⟩
theorem Listed.eorZp (z : Byte) : Listed.Statement (.eorZp z) := ⟨38, _, rfl, rfl, rfl, fun _ => rfl⟩
theorem Listed.eorZpx (z : Byte) : Listed.Statement (.eorZpx z) := ⟨48, _, rfl, rfl, rfl, fun _ => rfl⟩
theorem Listed.eorAbs (w : Addr) : Listed.Statement (.eorAbs w) := ⟨44, _, rfl, rfl, rfl, completeForm_f3 _ _ w⟩
theorem Listed.eorAbsx (w : Addr) : Listed.Statement (.eorAbsx w) := ⟨52, _, rfl, rfl, rfl, completeForm_f3 _ _ w⟩
theorem Listed.eorAbsy (w : Addr) : Listed.Statement (.eorAbsy w) := ⟨51, _, rfl, rfl, rfl, completeForm_f3 _ _ w⟩
theorem Listed.eorIndx (z : Byte) : Listed.Statement (.eorIndx z) := ⟨37, _, rfl, rfl, rfl, fun _ => rfl⟩
theorem Listed.eorIndy (z : Byte) : Listed.Statement (.eorIndy z) := ⟨47, _, rfl, rfl, rfl, fun _ => rfl⟩
theorem Listed.bitZp (z : Byte) : Listed.Statement (.bitZp z) := ⟨19, _, rfl, rfl, rfl, fun _ => rfl⟩
theorem Listed.bitAbs (w : Addr) : Listed.Statement (.bitAbs w) := ⟨25, _, rfl, rfl, rfl, completeForm_f3 _ _ w⟩
theorem Listed.incZp (z : Byte) : Listed.Statement (.incZp z) := ⟨136, _, rfl, rfl, rfl, fun _ => rfl⟩
theorem Listed.incZpx (z : Byte) : Listed.Statement (.incZpx z) := ⟨146, _, rfl, rfl, rfl, fun _ => rfl⟩
theorem Listed.incAbs (w : Addr) : Listed.Statement (.incAbs w) := ⟨142, _, rfl, rfl, rfl, completeForm_f3 _ _ w⟩
theorem Listed.incAbsx (w : Addr) : Listed.Statement (.incAbsx w) := ⟨150, _, rfl, rfl, rfl, completeForm_f3 _ _ w⟩
theorem Listed.decZp (z : Byte) : Listed.Statement (.decZp z) := ⟨117, _, rfl, rfl, rfl, fun _ => rfl⟩
theorem Listed.decZpx (z : Byte) : Listed.Statement (.decZpx z) := ⟨127, _, rfl, rfl, rfl, fun _ => rfl⟩
theorem Listed.decAbs (w : Addr) : Listed.Statement (.decAbs w) := ⟨123, _, rfl, rfl, rfl, completeForm_f3 _ _ w⟩
theorem Listed.decAbsx (w : Addr) : Listed.Statement (.decAbsx w) := ⟨131, _, rfl, rfl, rfl, completeForm_f3 _ _ w⟩
theorem Listed.inx : Listed.Statement (.inx) := ⟨137, _, rfl, rfl, rfl, fun _ => rfl⟩
theorem Listed.dex : Listed.Statement (.dex) := ⟨120, _, rfl, rfl, rfl, fun _ => rfl⟩
theorem Listed.iny : Listed.Statement (.iny) := ⟨118, _, rfl, rfl, rfl, fun _ => rfl⟩
theorem Listed.dey : Listed.Statement (.dey) := ⟨76, _, rfl, rfl, rfl, fun _ => rfl⟩
theorem Listed.jmpAbs (w : Addr) : Listed.Statement (.jmpAbs w) := ⟨43, _, rfl, rfl, rfl, completeForm_f3 _ _ w⟩
theorem Listed.jmpInd (p : Addr) : Listed.Statement (.jmpInd p) := ⟨61, _, rfl, rfl, rfl, completeForm_f3 _ _ p⟩
theorem Listed.jsr (w : Addr) : Listed.Statement (.jsr w) := ⟨17, _, rfl, rfl, rfl, completeForm_f3 _ _ w⟩
theorem Listed.rts : Listed.Statement (.rts) := ⟨54, _, rfl, rfl, rfl, fun _ => rfl⟩
theorem Listed.brk : Listed.Statement (.brk) := ⟨0, _, rfl, rfl, rfl, fun _ => rfl⟩
theorem Listed.nop : Listed.Statement (.nop) := ⟨139, _, rfl, rfl, rfl, fun _ => rfl⟩
theorem Listed.rti : Listed.Statement (.rti) := ⟨36, _, rfl, rfl, rfl, fun _ => rfl⟩
theorem Listed.adcImm (v : Byte) : Listed.Statement (.adcImm v) := ⟨59, _, rfl, rfl, rfl, fun _ => rfl⟩
theorem Listed.adcZp (z : Byte) : Listed.Statement (.adcZp z) := ⟨56, _, rfl, rfl, rfl, fun _ => rfl⟩
theorem Listed.adcZpx (z : Byte) : Listed.Statement (.adcZpx z) := ⟨66, _, rfl, rfl, rfl, fun _ => rfl⟩
theorem Listed.adcAbs (w : Addr) : Listed.Statement (.adcAbs w) := ⟨62, _, rfl, rfl, rfl, completeForm_f3 _ _ w⟩
theorem Listed.adcAbsx (w : Addr) : Listed.Statement (.adcAbsx w) := ⟨70, _, rfl, rfl, rfl, completeForm_f3 _ _ w⟩
theorem Listed.adcAbsy (w : Addr) : Listed.Statement (.adcAbsy w) := ⟨69, _, rfl, rfl, rfl, completeForm_f3 _ _ w⟩
theorem Listed.adcIndx (z : Byte) : Listed.Statement (.adcIndx z) := ⟨55, _, rfl, rfl, rfl, fun _ => rfl⟩
theorem Listed.adcIndy (z : Byte) : Listed.Statement (.adcIndy z) := ⟨65, _, rfl, rfl, rfl, fun _ => rfl⟩
theorem Listed.sbcImm (v : Byte) : Listed.Statement (.sbcImm v) := ⟨138, _, rfl, rfl, rfl, fun _ => rfl⟩
theorem Listed.sbcZp (z : Byte) : Listed.Statement (.sbcZp z) := ⟨135, _, rfl, rfl, rfl, fun _ => rfl⟩
theorem Listed.sbcZpx (z : Byte) : Listed.Statement (.sbcZpx z) := ⟨145, _, rfl, rfl, rfl, fun _ => rfl⟩
theorem Listed.sbcAbs (w : Addr) : Listed.Statement (.sbcAbs w) := ⟨141, _, rfl, rfl, rfl, completeForm_f3 _ _ w⟩
theorem Listed.sbcAbsx (w : Addr) : Listed.Statement (.sbcAbsx w) := ⟨149, _, rfl, rfl, rfl, completeForm_f3 _ _ w⟩
theorem Listed.sbcAbsy (w : Addr) : Listed.Statement (.sbcAbsy w) := ⟨148, _, rfl, rfl, rfl, completeForm_f3 _ _ w⟩
theorem Listed.sbcIndx (z : Byte) : Listed.Statement (.sbcIndx z) := ⟨133, _, rfl, rfl, rfl, fun _ => rfl⟩
theorem Listed.sbcIndy (z : Byte) : Listed.Statement (.sbcIndy z) := ⟨144, _, rfl, rfl, rfl, fun _ => rfl⟩
theorem Listed.cmpImm (v : Byte) : Listed.Statement (.cmpImm v) := ⟨119, _, rfl, rfl, rfl, fun _ => rfl⟩
theorem Listed.cmpZp (z : Byte) : Listed.Statement (.cmpZp z) := ⟨116, _, rfl, rfl, rfl, fun _ => rfl⟩
theorem Listed.cmpZpx (z : Byte) : Listed.Statement (.cmpZpx z) := ⟨126, _, rfl, rfl, rfl, fun _ => rfl⟩
theorem Listed.cmpAbs (w : Addr) : Listed.Statement (.cmpAbs w) := ⟨122, _, rfl, rfl, rfl, completeForm_f3 _ _ w⟩
theorem Listed.cmpAbsx (w : Addr) : Listed.Statement (.cmpAbsx w) := ⟨130, _, rfl, rfl, rfl, completeForm_f3 _ _ w⟩
theorem Listed.cmpAbsy (w : Addr) : Listed.Statement (.cmpAbsy w) := ⟨129, _, rfl, rfl, rfl, completeForm_f3 _ _ w⟩
theorem Listed.cmpIndx (z : Byte) : Listed.Statement (.cmpIndx z) := ⟨114, _, rfl, rfl, rfl, fun _ => rfl⟩
theorem Listed.cmpIndy (z : Byte) : Listed.Statement (.cmpIndy z) := ⟨125, _, rfl, rfl, rfl, fun _ => rfl⟩
theorem Listed.cpxImm (v : Byte) : Listed.Statement (.cpxImm v) := ⟨132, _, rfl, rfl, rfl, fun _ => rfl⟩
theorem Listed.cpxZp (z : Byte) : Listed.Statement (.cpxZp z) := ⟨134, _, rfl, rfl, rfl, fun _ => rfl⟩
theorem Listed.cpxAbs (w : Addr) : Listed.Statement (.cpxAbs w) := ⟨140, _, rfl, rfl, rfl, completeForm_f3 _ _ w⟩
theorem Listed.cpyImm (v : Byte) : Listed.Statement (.cpyImm v) := ⟨113, _, rfl, rfl, rfl, fun _ => rfl⟩
theorem Listed.cpyZp (z : Byte) : Listed.Statement (.cpyZp z) := ⟨115, _, rfl, rfl, rfl, fun _ => rfl⟩
theorem Listed.cpyAbs (w : Addr) : Listed.Statement (.cpyAbs w) := ⟨121, _, rfl, rfl, rfl, completeForm_f3 _ _ w⟩
theorem Listed.aslAcc : Listed.Statement (.aslAcc) := ⟨6, _, rfl, rfl, rfl, fun _ => rfl⟩
theorem Listed.aslZp (z : Byte) : Listed.Statement (.aslZp z) := ⟨3, _, rfl, rfl, rfl, fun _ => rfl⟩
theorem Listed.aslZpx (z : Byte) : Listed.Statement (.aslZpx z) := ⟨12, _, rfl, rfl, rfl, fun _ => rfl⟩
theorem Listed.aslAbs (w : Addr) : Listed.Statement (.aslAbs w) := ⟨8, _, rfl, rfl, rfl, completeForm_f3 _ _ w⟩
theorem Listed.aslAbsx (w : Addr) : Listed.Statement (.aslAbsx w) := ⟨16, _, rfl, rfl, rfl, completeForm_f3 _ _ w⟩
theorem Listed.lsrAcc : Listed.Statement (.lsrAcc) := ⟨42, _, rfl, rfl, rfl, fun _ => rfl⟩
theorem Listed.lsrZp (z : Byte) : Listed.Statement (.lsrZp z) := ⟨39, _, rfl, rfl, rfl, fun _ => rfl⟩
theorem Listed.lsrZpx (z : Byte) : Listed.Statement (.lsrZpx z) := ⟨49, _, rfl, rfl, rfl, fun _ => rfl⟩
theorem Listed.lsrAbs (w : Addr) : Listed.Statement (.lsrAbs w) := ⟨45, _, rfl, rfl, rfl, completeForm_f3 _ _ w⟩
theorem Listed.lsrAbsx (w : Addr) : Listed.Statement (.lsrAbsx w) := ⟨53, _, rfl, rfl, rfl, completeForm_f3 _ _ w⟩
theorem Listed.rolAcc : Listed.Statement (.rolAcc) := ⟨24, _, rfl, rfl, rfl, fun _ => rfl⟩
theorem Listed.rolZp (z : Byte) : Listed.Statement (.rolZp z) := ⟨21, _, rfl, rfl, rfl, fun _ => rfl⟩
theorem Listed.rolZpx (z : Byte) : Listed.Statement (.rolZpx z) := ⟨31, _, rfl, rfl, rfl, fun _ => rfl⟩
theorem Listed.rolAbs (w : Addr) : Listed.Statement (.rolAbs w) := ⟨27, _, rfl, rfl, rfl, completeForm_f3 _ _ w⟩
theorem Listed.rolAbsx (w : Addr) : Listed.Statement (.rolAbsx w) := ⟨35, _, rfl, rfl, rfl, completeForm_f3 _ _ w⟩
theorem Listed.rorAcc : Listed.Statement (.rorAcc) := ⟨60, _, rfl, rfl, rfl, fun _ => rfl⟩
theorem Listed.rorZp (z : Byte) : Listed.Statement (.rorZp z) := ⟨57, _, rfl, rfl, rfl, fun _ => rfl⟩
theorem Listed.rorZpx (z : Byte) : Listed.Statement (.rorZpx z) := ⟨67, _, rfl, rfl, rfl, fun _ => rfl⟩
theorem Listed.rorAbs (w : Addr) : Listed.Statement (.rorAbs w) := ⟨63, _, rfl, rfl, rfl, completeForm_f3 _ _ w⟩
theorem Listed.rorAbsx (w : Addr) : Listed.Statement (.rorAbsx w) := ⟨71, _, rfl, rfl, rfl, completeForm_f3 _ _ w⟩
theorem Listed.bpl (d : Byte) : Listed.Statement (.bpl d) := ⟨9, _, rfl, rfl, rfl, fun _ => rfl⟩
theorem Listed.bmi (d : Byte) : Listed.Statement (.bmi d) := ⟨28, _, rfl, rfl, rfl, fun _ => rfl⟩
theorem Listed.bvc (d : Byte) : Listed.Statement (.bvc d) := ⟨46, _, rfl, rfl, rfl, fun _ => rfl⟩
theorem Listed.bvs (d : Byte) : Listed.Statement (.bvs d) := ⟨64, _, rfl, rfl, rfl, fun _ => rfl⟩
theorem Listed.bcc (d : Byte) : Listed.Statement (.bcc d) := ⟨81, _, rfl, rfl, rfl, fun _ => rfl⟩
theorem Listed.bcs (d : Byte) : Listed.Statement (.bcs d) := ⟨102, _, rfl, rfl, rfl, fun _ => rfl⟩
theorem Listed.bne (d : Byte) : Listed.Statement (.bne d) := ⟨124, _, rfl, rfl, rfl, fun _ => rfl⟩
theorem Listed.beq (d : Byte) : Listed.Statement (.beq d) := ⟨143, _, rfl, rfl, rfl, fun _ => rfl⟩
theorem Listed.clc : Listed.Statement (.clc) := ⟨13, _, rfl, rfl, rfl, fun _ => rfl⟩
theorem Listed.sec : Listed.Statement (.sec) := ⟨32, _, rfl, rfl, rfl, fun _ => rfl⟩
theorem Listed.cli : Listed.Statement (.cli) := ⟨50, _, rfl, rfl, rfl, fun _ => rfl⟩
theorem Listed.sei : Listed.Statement (.sei) := ⟨68, _, rfl, rfl, rfl, fun _ => rfl⟩
theorem Listed.clv : Listed.Statement (.clv) := ⟨107, _, rfl, rfl, rfl, fun _ => rfl⟩
theorem Listed.cld : Listed.Statement (.cld) := ⟨128, _, rfl, rfl, rfl, fun _ => rfl⟩
theorem Listed.sed : Listed.Statement (.sed) := ⟨147, _, rfl, rfl, rfl, fun _ => rfl⟩

end Sys2Proof.Laws
end

