-- ==== Sys2Proof/Tests/Slice0.lean ====
section
/-! SUPPORT. The model's own tests: pairs of mnemonic and operand that WellFormed refuses, every constructor's word, one or two steps of
each instruction with results from 95_test_vectors.md (its vector named in each docstring), and for each obligation with hypotheses a
witness that meets them. -/

namespace Sys2Proof.Tests

open Sys2Proof.Machine Sys2Proof.Claims

/-! ### WellFormed refuses -/

/-- There is no immediate store (40_load_store.md). -/
theorem test_illformed_store_immediate : wellFormedForm .sta (.immediate 0x10) = false := by decide
/-- LDX indexes with Y, LDY with X (40_load_store.md R82, R83). -/
theorem test_illformed_ldx_by_x : wellFormedForm .ldx (.memory (.zpx 0x10)) = false := by decide
theorem test_illformed_ldy_by_y : wellFormedForm .ldy (.memory (.absy 0x1234)) = false := by decide
/-- There is no STA z,Y and no STX w,Y (40_load_store.md R84, R85). -/
theorem test_illformed_sta_zpy : wellFormedForm .sta (.memory (.zpy 0x10)) = false := by decide
theorem test_illformed_stx_absy : wellFormedForm .stx (.memory (.absy 0x1234)) = false := by decide
/-- There is no INC A (44_incdec.md R108). -/
theorem test_illformed_inc_accumulator : wellFormedForm .inc .accumulator = false := by decide
/-- BIT has two modes (43_logical.md R106). -/
theorem test_illformed_bit_immediate : wellFormedForm .bit (.immediate 0x10) = false := by decide
/-- JMP takes a word, JSR has no indirect form (45_jump_call.md R115 to R117). -/
theorem test_illformed_jmp_zp : wellFormedForm .jmp (.memory (.zp 0x10)) = false := by decide
theorem test_illformed_jsr_indirect : wellFormedForm .jsr (.indirect 0x1234) = false := by decide
/-- A branch is Relative only, an Implied instruction has no operand, a shift has no indexed-indirect form. -/
theorem test_illformed_bne_absolute : wellFormedForm .bne (.memory (.abs 0x1234)) = false := by decide
theorem test_illformed_tax_immediate : wellFormedForm .tax (.immediate 0x10) = false := by decide
theorem test_illformed_asl_indirect_y : wellFormedForm .asl (.memory (.indy 0x10)) = false := by decide
theorem test_illformed_cpx_absx : wellFormedForm .cpx (.memory (.absx 0x1234)) = false := by decide

/-! ### Decode: every row of the family files' opcode tables, operand byte 34, operand word 1234 -/

/-- 40_load_store.md. -/
theorem test_decode_loadstore :
    decode [0xA9, 0x34] = .instr (.ldaImm 0x34) [] ∧
    decode [0xA5, 0x34] = .instr (.ldaZp 0x34) [] ∧
    decode [0xB5, 0x34] = .instr (.ldaZpx 0x34) [] ∧
    decode [0xAD, 0x34, 0x12] = .instr (.ldaAbs 0x1234) [] ∧
    decode [0xBD, 0x34, 0x12] = .instr (.ldaAbsx 0x1234) [] ∧
    decode [0xB9, 0x34, 0x12] = .instr (.ldaAbsy 0x1234) [] ∧
    decode [0xA1, 0x34] = .instr (.ldaIndx 0x34) [] ∧
    decode [0xB1, 0x34] = .instr (.ldaIndy 0x34) [] ∧
    decode [0xA2, 0x34] = .instr (.ldxImm 0x34) [] ∧
    decode [0xA6, 0x34] = .instr (.ldxZp 0x34) [] ∧
    decode [0xB6, 0x34] = .instr (.ldxZpy 0x34) [] ∧
    decode [0xAE, 0x34, 0x12] = .instr (.ldxAbs 0x1234) [] ∧
    decode [0xBE, 0x34, 0x12] = .instr (.ldxAbsy 0x1234) [] ∧
    decode [0xA0, 0x34] = .instr (.ldyImm 0x34) [] ∧
    decode [0xA4, 0x34] = .instr (.ldyZp 0x34) [] ∧
    decode [0xB4, 0x34] = .instr (.ldyZpx 0x34) [] ∧
    decode [0xAC, 0x34, 0x12] = .instr (.ldyAbs 0x1234) [] ∧
    decode [0xBC, 0x34, 0x12] = .instr (.ldyAbsx 0x1234) [] ∧
    decode [0x85, 0x34] = .instr (.staZp 0x34) [] ∧
    decode [0x95, 0x34] = .instr (.staZpx 0x34) [] ∧
    decode [0x8D, 0x34, 0x12] = .instr (.staAbs 0x1234) [] ∧
    decode [0x9D, 0x34, 0x12] = .instr (.staAbsx 0x1234) [] ∧
    decode [0x99, 0x34, 0x12] = .instr (.staAbsy 0x1234) [] ∧
    decode [0x81, 0x34] = .instr (.staIndx 0x34) [] ∧
    decode [0x91, 0x34] = .instr (.staIndy 0x34) [] ∧
    decode [0x86, 0x34] = .instr (.stxZp 0x34) [] ∧
    decode [0x96, 0x34] = .instr (.stxZpy 0x34) [] ∧
    decode [0x8E, 0x34, 0x12] = .instr (.stxAbs 0x1234) [] ∧
    decode [0x84, 0x34] = .instr (.styZp 0x34) [] ∧
    decode [0x94, 0x34] = .instr (.styZpx 0x34) [] ∧
    decode [0x8C, 0x34, 0x12] = .instr (.styAbs 0x1234) [] :=
  ⟨rfl, rfl, rfl, rfl, rfl, rfl, rfl, rfl, rfl, rfl, rfl, rfl, rfl, rfl, rfl, rfl, rfl, rfl, rfl, rfl, rfl, rfl, rfl, rfl, rfl, rfl, rfl, rfl, rfl, rfl, rfl⟩

/-- 41_transfer.md. -/
theorem test_decode_transfer :
    decode [0xAA] = .instr .tax [] ∧
    decode [0x8A] = .instr .txa [] ∧
    decode [0xA8] = .instr .tay [] ∧
    decode [0x98] = .instr .tya [] ∧
    decode [0xBA] = .instr .tsx [] ∧
    decode [0x9A] = .instr .txs [] :=
  ⟨rfl, rfl, rfl, rfl, rfl, rfl⟩

/-- 42_stack.md. -/
theorem test_decode_stack :
    decode [0x48] = .instr .pha [] ∧
    decode [0x08] = .instr .php [] ∧
    decode [0x68] = .instr .pla [] ∧
    decode [0x28] = .instr .plp [] :=
  ⟨rfl, rfl, rfl, rfl⟩

/-- 43_logical.md. -/
theorem test_decode_logical :
    decode [0x29, 0x34] = .instr (.andImm 0x34) [] ∧
    decode [0x25, 0x34] = .instr (.andZp 0x34) [] ∧
    decode [0x35, 0x34] = .instr (.andZpx 0x34) [] ∧
    decode [0x2D, 0x34, 0x12] = .instr (.andAbs 0x1234) [] ∧
    decode [0x3D, 0x34, 0x12] = .instr (.andAbsx 0x1234) [] ∧
    decode [0x39, 0x34, 0x12] = .instr (.andAbsy 0x1234) [] ∧
    decode [0x21, 0x34] = .instr (.andIndx 0x34) [] ∧
    decode [0x31, 0x34] = .instr (.andIndy 0x34) [] ∧
    decode [0x09, 0x34] = .instr (.oraImm 0x34) [] ∧
    decode [0x05, 0x34] = .instr (.oraZp 0x34) [] ∧
    decode [0x15, 0x34] = .instr (.oraZpx 0x34) [] ∧
    decode [0x0D, 0x34, 0x12] = .instr (.oraAbs 0x1234) [] ∧
    decode [0x1D, 0x34, 0x12] = .instr (.oraAbsx 0x1234) [] ∧
    decode [0x19, 0x34, 0x12] = .instr (.oraAbsy 0x1234) [] ∧
    decode [0x01, 0x34] = .instr (.oraIndx 0x34) [] ∧
    decode [0x11, 0x34] = .instr (.oraIndy 0x34) [] ∧
    decode [0x49, 0x34] = .instr (.eorImm 0x34) [] ∧
    decode [0x45, 0x34] = .instr (.eorZp 0x34) [] ∧
    decode [0x55, 0x34] = .instr (.eorZpx 0x34) [] ∧
    decode [0x4D, 0x34, 0x12] = .instr (.eorAbs 0x1234) [] ∧
    decode [0x5D, 0x34, 0x12] = .instr (.eorAbsx 0x1234) [] ∧
    decode [0x59, 0x34, 0x12] = .instr (.eorAbsy 0x1234) [] ∧
    decode [0x41, 0x34] = .instr (.eorIndx 0x34) [] ∧
    decode [0x51, 0x34] = .instr (.eorIndy 0x34) [] ∧
    decode [0x24, 0x34] = .instr (.bitZp 0x34) [] ∧
    decode [0x2C, 0x34, 0x12] = .instr (.bitAbs 0x1234) [] :=
  ⟨rfl, rfl, rfl, rfl, rfl, rfl, rfl, rfl, rfl, rfl, rfl, rfl, rfl, rfl, rfl, rfl, rfl, rfl, rfl, rfl, rfl, rfl, rfl, rfl, rfl, rfl⟩

/-- 44_incdec.md. -/
theorem test_decode_incdec :
    decode [0xE6, 0x34] = .instr (.incZp 0x34) [] ∧
    decode [0xF6, 0x34] = .instr (.incZpx 0x34) [] ∧
    decode [0xEE, 0x34, 0x12] = .instr (.incAbs 0x1234) [] ∧
    decode [0xFE, 0x34, 0x12] = .instr (.incAbsx 0x1234) [] ∧
    decode [0xC6, 0x34] = .instr (.decZp 0x34) [] ∧
    decode [0xD6, 0x34] = .instr (.decZpx 0x34) [] ∧
    decode [0xCE, 0x34, 0x12] = .instr (.decAbs 0x1234) [] ∧
    decode [0xDE, 0x34, 0x12] = .instr (.decAbsx 0x1234) [] ∧
    decode [0xE8] = .instr .inx [] ∧
    decode [0xCA] = .instr .dex [] ∧
    decode [0xC8] = .instr .iny [] ∧
    decode [0x88] = .instr .dey [] :=
  ⟨rfl, rfl, rfl, rfl, rfl, rfl, rfl, rfl, rfl, rfl, rfl, rfl⟩

/-- 45_jump_call.md. -/
theorem test_decode_jump :
    decode [0x4C, 0x34, 0x12] = .instr (.jmpAbs 0x1234) [] ∧
    decode [0x6C, 0x34, 0x12] = .instr (.jmpInd 0x1234) [] ∧
    decode [0x20, 0x34, 0x12] = .instr (.jsr 0x1234) [] ∧
    decode [0x60] = .instr .rts [] :=
  ⟨rfl, rfl, rfl, rfl⟩

/-- 46_system.md. -/
theorem test_decode_system :
    decode [0x00] = .instr .brk [] ∧
    decode [0xEA] = .instr .nop [] ∧
    decode [0x40] = .instr .rti [] :=
  ⟨rfl, rfl, rfl⟩

/-- 47_arith_compare.md. -/
theorem test_decode_arith :
    decode [0x69, 0x34] = .instr (.adcImm 0x34) [] ∧
    decode [0x65, 0x34] = .instr (.adcZp 0x34) [] ∧
    decode [0x75, 0x34] = .instr (.adcZpx 0x34) [] ∧
    decode [0x6D, 0x34, 0x12] = .instr (.adcAbs 0x1234) [] ∧
    decode [0x7D, 0x34, 0x12] = .instr (.adcAbsx 0x1234) [] ∧
    decode [0x79, 0x34, 0x12] = .instr (.adcAbsy 0x1234) [] ∧
    decode [0x61, 0x34] = .instr (.adcIndx 0x34) [] ∧
    decode [0x71, 0x34] = .instr (.adcIndy 0x34) [] ∧
    decode [0xE9, 0x34] = .instr (.sbcImm 0x34) [] ∧
    decode [0xE5, 0x34] = .instr (.sbcZp 0x34) [] ∧
    decode [0xF5, 0x34] = .instr (.sbcZpx 0x34) [] ∧
    decode [0xED, 0x34, 0x12] = .instr (.sbcAbs 0x1234) [] ∧
    decode [0xFD, 0x34, 0x12] = .instr (.sbcAbsx 0x1234) [] ∧
    decode [0xF9, 0x34, 0x12] = .instr (.sbcAbsy 0x1234) [] ∧
    decode [0xE1, 0x34] = .instr (.sbcIndx 0x34) [] ∧
    decode [0xF1, 0x34] = .instr (.sbcIndy 0x34) [] ∧
    decode [0xC9, 0x34] = .instr (.cmpImm 0x34) [] ∧
    decode [0xC5, 0x34] = .instr (.cmpZp 0x34) [] ∧
    decode [0xD5, 0x34] = .instr (.cmpZpx 0x34) [] ∧
    decode [0xCD, 0x34, 0x12] = .instr (.cmpAbs 0x1234) [] ∧
    decode [0xDD, 0x34, 0x12] = .instr (.cmpAbsx 0x1234) [] ∧
    decode [0xD9, 0x34, 0x12] = .instr (.cmpAbsy 0x1234) [] ∧
    decode [0xC1, 0x34] = .instr (.cmpIndx 0x34) [] ∧
    decode [0xD1, 0x34] = .instr (.cmpIndy 0x34) [] ∧
    decode [0xE0, 0x34] = .instr (.cpxImm 0x34) [] ∧
    decode [0xE4, 0x34] = .instr (.cpxZp 0x34) [] ∧
    decode [0xEC, 0x34, 0x12] = .instr (.cpxAbs 0x1234) [] ∧
    decode [0xC0, 0x34] = .instr (.cpyImm 0x34) [] ∧
    decode [0xC4, 0x34] = .instr (.cpyZp 0x34) [] ∧
    decode [0xCC, 0x34, 0x12] = .instr (.cpyAbs 0x1234) [] :=
  ⟨rfl, rfl, rfl, rfl, rfl, rfl, rfl, rfl, rfl, rfl, rfl, rfl, rfl, rfl, rfl, rfl, rfl, rfl, rfl, rfl, rfl, rfl, rfl, rfl, rfl, rfl, rfl, rfl, rfl, rfl⟩

/-- 48_shift_rotate.md. -/
theorem test_decode_shift :
    decode [0x0A] = .instr .aslAcc [] ∧
    decode [0x06, 0x34] = .instr (.aslZp 0x34) [] ∧
    decode [0x16, 0x34] = .instr (.aslZpx 0x34) [] ∧
    decode [0x0E, 0x34, 0x12] = .instr (.aslAbs 0x1234) [] ∧
    decode [0x1E, 0x34, 0x12] = .instr (.aslAbsx 0x1234) [] ∧
    decode [0x4A] = .instr .lsrAcc [] ∧
    decode [0x46, 0x34] = .instr (.lsrZp 0x34) [] ∧
    decode [0x56, 0x34] = .instr (.lsrZpx 0x34) [] ∧
    decode [0x4E, 0x34, 0x12] = .instr (.lsrAbs 0x1234) [] ∧
    decode [0x5E, 0x34, 0x12] = .instr (.lsrAbsx 0x1234) [] ∧
    decode [0x2A] = .instr .rolAcc [] ∧
    decode [0x26, 0x34] = .instr (.rolZp 0x34) [] ∧
    decode [0x36, 0x34] = .instr (.rolZpx 0x34) [] ∧
    decode [0x2E, 0x34, 0x12] = .instr (.rolAbs 0x1234) [] ∧
    decode [0x3E, 0x34, 0x12] = .instr (.rolAbsx 0x1234) [] ∧
    decode [0x6A] = .instr .rorAcc [] ∧
    decode [0x66, 0x34] = .instr (.rorZp 0x34) [] ∧
    decode [0x76, 0x34] = .instr (.rorZpx 0x34) [] ∧
    decode [0x6E, 0x34, 0x12] = .instr (.rorAbs 0x1234) [] ∧
    decode [0x7E, 0x34, 0x12] = .instr (.rorAbsx 0x1234) [] :=
  ⟨rfl, rfl, rfl, rfl, rfl, rfl, rfl, rfl, rfl, rfl, rfl, rfl, rfl, rfl, rfl, rfl, rfl, rfl, rfl, rfl⟩

/-- 49_branch_flag.md. -/
theorem test_decode_branchflag :
    decode [0x10, 0x34] = .instr (.bpl 0x34) [] ∧
    decode [0x30, 0x34] = .instr (.bmi 0x34) [] ∧
    decode [0x50, 0x34] = .instr (.bvc 0x34) [] ∧
    decode [0x70, 0x34] = .instr (.bvs 0x34) [] ∧
    decode [0x90, 0x34] = .instr (.bcc 0x34) [] ∧
    decode [0xB0, 0x34] = .instr (.bcs 0x34) [] ∧
    decode [0xD0, 0x34] = .instr (.bne 0x34) [] ∧
    decode [0xF0, 0x34] = .instr (.beq 0x34) [] ∧
    decode [0x18] = .instr .clc [] ∧
    decode [0x38] = .instr .sec [] ∧
    decode [0x58] = .instr .cli [] ∧
    decode [0x78] = .instr .sei [] ∧
    decode [0xB8] = .instr .clv [] ∧
    decode [0xD8] = .instr .cld [] ∧
    decode [0xF8] = .instr .sed [] :=
  ⟨rfl, rfl, rfl, rfl, rfl, rfl, rfl, rfl, rfl, rfl, rfl, rfl, rfl, rfl, rfl⟩

/-- One word of each family bit by bit: LDX z,Y; TYA; PLA; BIT w; INC z,X; JSR w; RTI; CPY #v; LSR A; BVS d. -/
theorem test_decode_bits :
    decode [0b10110110, 0b11110000] = .instr (.ldxZpy 0xF0) [] ∧
    decode [0b10011000] = .instr .tya [] ∧
    decode [0b01101000] = .instr .pla [] ∧
    decode [0b00101100, 0b00000000, 0b00000011] = .instr (.bitAbs 0x0300) [] ∧
    decode [0b11110110, 0b11111111] = .instr (.incZpx 0xFF) [] ∧
    decode [0b00100000, 0b00110100, 0b00010010] = .instr (.jsr 0x1234) [] ∧
    decode [0b01000000] = .instr .rti [] ∧
    decode [0b11000000, 0b10000000] = .instr (.cpyImm 0x80) [] ∧
    decode [0b01001010] = .instr .lsrAcc [] ∧
    decode [0b01110000, 0b10000000] = .instr (.bvs 0x80) [] :=
  ⟨rfl, rfl, rfl, rfl, rfl, rfl, rfl, rfl, rfl, rfl⟩

/-- Rejections by name: an illegal opcode (30_encoding.md R74), too few bytes, none. -/
theorem test_decode_rejects :
    decode [0x02, 0x10] = .rejected (.illegalOpcode 0x02) ∧ decode [0xFF] = .rejected (.illegalOpcode 0xFF) ∧
    decode [0xAD, 0x34] = .rejected (.truncated 0xAD) ∧ decode [0xA9] = .rejected (.truncated 0xA9) ∧
    decode [] = .rejected .noBytes :=
  ⟨rfl, rfl, rfl, rfl, rfl⟩

/-- The first byte is bits 7..0 of a table word, bits above `nbits` are 0 (spec/opcode_table.json). -/
theorem test_decode_table_word :
    decodeTableWord 24 0x1234AD = some (.ldaAbs 0x1234) ∧ decodeTableWord 8 0x1234AD = some (.ldaAbs 0x0000) ∧
    decodeTableWord 8 0x02 = none :=
  ⟨rfl, rfl, rfl⟩

/-! ### Steps -/

/-- A state with bytes at an address, A, X and Y zero, SP 0xFF, SR 0, PC at the address. -/
def boot (pc : Addr) (bytes : List Byte) : State :=
  ((((((State.reset.setMem (Memory.writeBytes [] pc bytes)).setPc pc).setA 0).setX 0).setY 0).setSr 0)

/-- One more byte of memory. -/
def poke (a : Addr) (v : Byte) (s : State) : State := s.setMem (s.mem.write a v)

/-- What is seen after one step. -/
def after {α : Type} (s : State) (see : State → α) : Option α :=
  match step s with
  | .next t => some (see t)
  | .fault _ => none
  | .refused _ => none

/-- 40_load_store.md. -/
theorem test_step_loads_and_stores :
    -- S2, LDA #$A1
    after ((boot 0x0000 [0xA9, 0xA1]).setSr 0xFF) (fun t => (t.a, t.sr, t.pc, t.cycles)) = some (0xA1, 0xFD, 0x0002, some 2) ∧
    -- V1.12, LDA ($FF),Y
    after (poke 0x0401 0x3C (poke 0x0100 0x99 (poke 0x00FF 0x00 (poke 0x0000 0x04 ((boot 0x0200 [0xB1, 0xFF]).setY 0x01))))) (fun t => (t.a, t.sr)) = some (0x3C, 0x00) ∧
    -- V1.15, LDX $F0,Y
    after (poke 0x00F1 0x11 (poke 0x0010 0x44 (((boot 0x0200 [0xB6, 0xF0]).setX 0x01).setY 0x20))) (fun t => (t.x, t.sr)) = some (0x44, 0x00) ∧
    -- V1.19, LDY $03FF,X
    after (poke 0x0400 0x12 ((boot 0x0200 [0xBC, 0xFF, 0x03]).setX 0x01)) (fun t => (t.y, t.pc)) = some (0x12, 0x0203) ∧
    -- V1.24, STA $FFFF,X
    after (((boot 0x0200 [0x9D, 0xFF, 0xFF]).setA 0x42).setX 0x01) (fun t => (t.mem.read 0x0000, t.sr, t.cycles)) = some (0x42, 0x00, some 5) ∧
    -- V1.29, STX $FF,Y
    after (((boot 0x0200 [0x96, 0xFF]).setX 0x05).setY 0x02) (fun t => (t.mem.read 0x0001, t.pc)) = some (0x05, 0x0202) ∧
    -- V1.33, STY $1234
    after ((boot 0x0200 [0x8C, 0x34, 0x12]).setY 0x80) (fun t => (t.mem.read 0x1234, t.sr)) = some (0x80, 0x00) :=
  ⟨rfl, rfl, rfl, rfl, rfl, rfl, rfl⟩

/-- 41_transfer.md. -/
theorem test_step_transfers :
    -- V2.1, TAX
    after ((((boot 0x0200 [0xAA]).setA 0x80).setX 0x01).setSr 0x02) (fun t => (t.x, t.sr)) = some (0x80, 0x80) ∧
    -- V2.3, TXA
    after (((boot 0x0200 [0x8A]).setX 0x7F).setSr 0x82) (fun t => (t.a, t.sr)) = some (0x7F, 0x00) ∧
    -- V2.4, TAY
    after ((boot 0x0200 [0xA8]).setA 0xFF) (fun t => (t.y, t.sr)) = some (0xFF, 0x80) ∧
    -- V2.5, TYA
    after (((boot 0x0200 [0x98]).setA 0xFF).setSr 0x80) (fun t => (t.a, t.sr)) = some (0x00, 0x02) ∧
    -- V2.7, TSX
    after (((boot 0x0200 [0xBA]).setX 0x55).setSp 0x00) (fun t => (t.x, t.sr)) = some (0x00, 0x02) ∧
    -- V2.8, TXS
    after ((boot 0x0200 [0x9A]).setSr 0x80) (fun t => (t.sp, t.sr)) = some (0x00, 0x80) :=
  ⟨rfl, rfl, rfl, rfl, rfl, rfl⟩

/-- 42_stack.md. -/
theorem test_step_stack :
    -- V3.2, PHA
    after (((boot 0x0200 [0x48]).setA 0x42).setSp 0x00) (fun t => (t.sp, t.mem.read 0x0100)) = some (0xFF, 0x42) ∧
    -- V3.4, PLA
    after (poke 0x0100 0x00 (((boot 0x0200 [0x68]).setA 0x11).setSr 0x80)) (fun t => (t.a, t.sp, t.sr)) = some (0x00, 0x00, 0x02) ∧
    -- V3.6, PHP
    after ((boot 0x0200 [0x08]).setSr 0xC3) (fun t => (t.sp, t.mem.read 0x01FF, t.sr)) = some (0xFE, 0xC3, 0xC3) ∧
    -- V3.8, PLP
    after (poke 0x01FF 0x00 (((boot 0x0200 [0x28]).setSp 0xFE).setSr 0xFF)) (fun t => (t.sp, t.sr)) = some (0xFF, 0x00) :=
  ⟨rfl, rfl, rfl, rfl⟩

/-- 43_logical.md. -/
theorem test_step_logical :
    -- V4.3, AND #$FF
    after (((boot 0x0200 [0x29, 0xFF]).setA 0x80).setSr 0x43) (fun t => (t.a, t.sr)) = some (0x80, 0xC1) ∧
    -- V4.7, ORA $0300,X
    after (poke 0x0302 0x10 (((boot 0x0200 [0x1D, 0x00, 0x03]).setA 0x01).setX 0x02)) (fun t => (t.a, t.sr)) = some (0x11, 0x00) ∧
    -- V4.10, EOR ($20),Y
    after (poke 0x0301 0xF0 (poke 0x0021 0x03 (poke 0x0020 0x00 (((boot 0x0200 [0x51, 0x20]).setA 0x0F).setY 0x01)))) (fun t => (t.a, t.sr)) = some (0xFF, 0x80) ∧
    -- V4.11, BIT $40
    after (poke 0x0040 0xC0 (boot 0x0200 [0x24, 0x40])) (fun t => (t.a, t.sr)) = some (0x00, 0xC2) ∧
    -- S4, BIT $40
    after (poke 0x0040 0x2C (((boot 0x0000 [0x24, 0x40]).setA 0xC2).setSr 0xFF)) (fun t => (t.a, t.sr)) = some (0xC2, 0x3F) :=
  ⟨rfl, rfl, rfl, rfl, rfl⟩

/-- 44_incdec.md. -/
theorem test_step_increments :
    -- V5.3, INC $FF,X
    after (((boot 0x0200 [0xF6, 0xFF]).setX 0x11).setSr 0x41) (fun t => (t.mem.read 0x0010, t.sr)) = some (0x01, 0x41) ∧
    -- V5.5, DEC $10
    after ((boot 0x0200 [0xC6, 0x10]).setSr 0x01) (fun t => (t.mem.read 0x0010, t.sr)) = some (0xFF, 0x81) ∧
    -- S1, INX
    after (((((boot 0x0000 [0xE8]).setA 0xFF).setX 0xFF).setY 0xFF).setSr 0xFF) (fun t => (t.x, t.sr, t.pc, t.cycles)) = some (0x00, 0x7F, 0x0001, some 2) ∧
    -- V5.7, DEX
    after (boot 0x0200 [0xCA]) (fun t => (t.x, t.sr)) = some (0xFF, 0x80) ∧
    -- V5.10, INY
    after (((boot 0x0200 [0xC8]).setY 0xFF).setSr 0x81) (fun t => (t.y, t.sr)) = some (0x00, 0x03) ∧
    -- V5.13, DEY
    after (((boot 0x0200 [0x88]).setY 0x80).setSr 0x80) (fun t => (t.y, t.sr)) = some (0x7F, 0x00) :=
  ⟨rfl, rfl, rfl, rfl, rfl, rfl⟩

/-- 45_jump_call.md. -/
theorem test_step_jumps :
    -- V6.1, JMP $1234
    after ((boot 0x0000 [0x4C, 0x34, 0x12]).setSr 0xC3) (fun t => (t.pc, t.sr)) = some (0x1234, 0xC3) ∧
    -- V6.4, JMP ($02FF)
    after (poke 0x0300 0x56 (poke 0x02FF 0x34 (poke 0x0200 0x12 (boot 0x0400 [0x6C, 0xFF, 0x02])))) (fun t => t.pc) = some 0x1234 ∧
    -- V6.11, JSR $0300
    after (boot 0x01FD [0x20, 0x00, 0x03]) (fun t => (t.pc, t.sp, t.mem.read 0x01FF, t.mem.read 0x01FE)) = some (0x0300, 0xFD, 0x01, 0xFF) ∧
    -- V6.14, RTS
    after (poke 0x01FF 0x33 (poke 0x0100 0x44 ((boot 0x0300 [0x60]).setSp 0xFE))) (fun t => (t.pc, t.sp)) = some (0x4434, 0x00) :=
  ⟨rfl, rfl, rfl, rfl⟩

/-- 46_system.md. -/
theorem test_step_system :
    -- V7.3, BRK
    after (poke 0xFFFF 0x03 (poke 0xFFFE 0x00 ((boot 0x0234 [0x00]).setSr 0xCB))) (fun t => (t.pc, t.sp, t.sr, t.mem.read 0x01FF, t.mem.read 0x01FE, t.mem.read 0x01FD)) = some (0x0300, 0xFC, 0xCF, 0x02, 0x35, 0xDB) ∧
    -- S3, BRK
    after (poke 0xFFFF 0xA5 (poke 0xFFFE 0x54 (((((boot 0x0000 [0x00]).setA 0xFF).setX 0xFF).setY 0xFF).setSr 0xFF))) (fun t => (t.pc, t.sp, t.cycles)) = some (0xA554, 0xFC, some 7) ∧
    -- V7.1, NOP
    after (((boot 0x0200 [0xEA]).setA 0x12).setSr 0x9A) (fun t => (t.a, t.sr, t.pc, t.cycles)) = some (0x12, 0x9A, 0x0201, some 2) ∧
    -- V7.6, RTI
    after (poke 0x01FF 0x02 (poke 0x01FE 0x35 (poke 0x01FD 0x10 (((boot 0x0300 [0x40]).setSp 0xFC).setSr 0x04)))) (fun t => (t.pc, t.sp, t.sr)) = some (0x0235, 0xFF, 0x10) :=
  ⟨rfl, rfl, rfl, rfl⟩

/-- 47_arith_compare.md. -/
theorem test_step_arithmetic :
    -- V8.16, ADC $02FF,X
    after (poke 0x0300 0x80 (((boot 0x0200 [0x7D, 0xFF, 0x02]).setA 0x80).setX 0x01)) (fun t => (t.a, t.sr)) = some (0x00, 0x43) ∧
    -- V8.14, ADC #$27 with D set
    after (((boot 0x0200 [0x69, 0x27]).setA 0x15).setSr 0x09) (fun t => (t.a, t.sr)) = some (0x3D, 0x08) ∧
    -- V8.32, SBC #$80
    after (((boot 0x0200 [0xE9, 0x80]).setA 0x7F).setSr 0x01) (fun t => (t.a, t.sr)) = some (0xFF, 0xC0) ∧
    -- V8.29, SBC #$05
    after ((boot 0x0200 [0xE9, 0x05]).setA 0x05) (fun t => (t.a, t.sr)) = some (0xFF, 0x80) ∧
    -- V8.42, CMP #$20
    after (((boot 0x0200 [0xC9, 0x20]).setA 0x10).setSr 0x03) (fun t => (t.a, t.sr)) = some (0x10, 0x80) ∧
    -- V8.50, CPX $0300
    after ((boot 0x0200 [0xEC, 0x00, 0x03]).setX 0xFF) (fun t => (t.x, t.sr)) = some (0xFF, 0x81) ∧
    -- V8.52, CPY $10
    after (poke 0x0010 0x40 (((boot 0x0200 [0xC4, 0x10]).setY 0x40).setSr 0x40)) (fun t => (t.y, t.sr)) = some (0x40, 0x43) :=
  ⟨rfl, rfl, rfl, rfl, rfl, rfl, rfl⟩

/-- 48_shift_rotate.md. -/
theorem test_step_shifts :
    -- V9.2, ASL A
    after ((boot 0x0200 [0x0A]).setA 0x80) (fun t => (t.a, t.sr)) = some (0x00, 0x03) ∧
    -- V9.5, ASL $02FF,X
    after (poke 0x0300 0xFF (((boot 0x0200 [0x1E, 0xFF, 0x02]).setX 0x01).setSr 0x01)) (fun t => (t.mem.read 0x0300, t.sr, t.cycles)) = some (0xFE, 0x81, some 7) ∧
    -- V9.8, LSR A
    after (((boot 0x0200 [0x4A]).setA 0x80).setSr 0x81) (fun t => (t.a, t.sr)) = some (0x40, 0x00) ∧
    -- V9.12, ROL A
    after (((boot 0x0200 [0x2A]).setA 0x80).setSr 0x01) (fun t => (t.a, t.sr)) = some (0x01, 0x01) ∧
    -- V9.15, ROL $F0,X
    after (poke 0x0010 0x7F (((boot 0x0200 [0x36, 0xF0]).setX 0x20).setSr 0x01)) (fun t => (t.mem.read 0x0010, t.sr)) = some (0xFF, 0x80) ∧
    -- V9.18, ROR A
    after (((boot 0x0200 [0x6A]).setA 0x01).setSr 0x01) (fun t => (t.a, t.sr)) = some (0x80, 0x81) ∧
    -- V9.21, ROR $10
    after (poke 0x0010 0x02 ((boot 0x0200 [0x66, 0x10]).setSr 0x01)) (fun t => (t.mem.read 0x0010, t.sr)) = some (0x81, 0x80) :=
  ⟨rfl, rfl, rfl, rfl, rfl, rfl, rfl⟩

/-- 49_branch_flag.md. -/
theorem test_step_branches_and_flags :
    -- V10.1a, BPL
    after (boot 0x0200 [0x10, 0x10]) (fun t => t.pc) = some 0x0212 ∧
    -- V10.2b, BMI not taken
    after (boot 0x0200 [0x30, 0x10]) (fun t => t.pc) = some 0x0202 ∧
    -- V10.3b, BVC not taken
    after ((boot 0x0200 [0x50, 0x10]).setSr 0x40) (fun t => t.pc) = some 0x0202 ∧
    -- V10.4a, BVS
    after ((boot 0x0200 [0x70, 0x10]).setSr 0x40) (fun t => t.pc) = some 0x0212 ∧
    -- V10.9, BCC
    after (boot 0x0000 [0x90, 0x80]) (fun t => t.pc) = some 0xFF82 ∧
    -- V10.10, BCS
    after ((boot 0xFFFD [0xB0, 0x7F]).setSr 0x01) (fun t => t.pc) = some 0x007E ∧
    -- V10.11, BNE
    after (boot 0x0200 [0xD0, 0xFE]) (fun t => t.pc) = some 0x0200 ∧
    -- V10.8a, BEQ
    after ((boot 0x0200 [0xF0, 0x10]).setSr 0x02) (fun t => (t.pc, t.sr, t.cycles)) = some (0x0212, 0x02, some 2) ∧
    -- V10.20, CLC
    after ((boot 0x0200 [0x18]).setSr 0xFF) (fun t => t.sr) = some 0xFE ∧
    -- V10.22, SEC
    after (boot 0x0200 [0x38]) (fun t => t.sr) = some 0x01 ∧
    -- V10.24, CLI
    after ((boot 0x0200 [0x58]).setSr 0xFF) (fun t => t.sr) = some 0xFB ∧
    -- V10.25, SEI
    after (boot 0x0200 [0x78]) (fun t => t.sr) = some 0x04 ∧
    -- V10.26, CLV
    after ((boot 0x0200 [0xB8]).setSr 0xFF) (fun t => t.sr) = some 0xBF ∧
    -- V10.28, CLD
    after ((boot 0x0200 [0xD8]).setSr 0xFF) (fun t => t.sr) = some 0xF7 ∧
    -- V10.29, SED
    after (boot 0x0200 [0xF8]) (fun t => t.sr) = some 0x08 :=
  ⟨rfl, rfl, rfl, rfl, rfl, rfl, rfl, rfl, rfl, rfl, rfl, rfl, rfl, rfl, rfl⟩

/-- 60_exceptions.md R171, R172 and 20_memory.md R44. -/
theorem test_step_illegal_and_accesses :
    -- V11.2, illegal 0xFF
    after (((boot 0xFFFF [0xFF]).setA 0x12).setSr 0x9A) (fun t => (t.a, t.sr, t.pc, t.cycles, t.report)) = some (0x12, 0x9A, 0x0000, none, some ⟨0xFF, 0xFFFF⟩) ∧
    -- V11.4, illegal 0x9C
    after (boot 0x0200 [0x9C, 0x00, 0x03]) (fun t => (t.pc, t.accesses)) = some (0x0201, [.read 0x0200 0x9C]) ∧
    -- V5.4, INC $02FF,X
    after (poke 0x0300 0x0F ((boot 0x0200 [0xFE, 0xFF, 0x02]).setX 0x01)) (fun t => t.accesses) = some [.read 0x0200 0xFE, .read 0x0201 0xFF, .read 0x0202 0x02, .read 0x0300 0x0F, .write 0x0300 0x10] :=
  ⟨rfl, rfl, rfl⟩

/-! ### Witnesses: for each obligation with hypotheses, a state and operands that meet all of them -/

/-- A state with something in every register and in memory: `mem` is canonical, two cells at the ends of the address space. -/
def busy : State :=
  { a := 0x81, x := 0x04, y := 0xFF, sp := 0x00, sr := 0x21, pc := 0xFFFE, mem := [(0x00, 0x12), (0xFFFE, 0xAD), (0xFFFF, 0x34)],
    cycles := some 2, report := none, accesses := [] }

theorem witness_Inv : busy.mem.wf = true := by rfl

/-- The canonical form is not everything: a cell that holds what an unlisted address reads as, a key out of order, a key too high. -/
theorem test_memory_not_canonical :
    Memory.wf [(0x10, 0x00)] = false ∧ Memory.wf [(0x20, 0x01), (0x10, 0x01)] = false ∧ Memory.wf [(0x10000, 0x01)] = false :=
  ⟨rfl, rfl, rfl⟩

theorem witness_DecodedBytesAreTheEncoding : decode [0xA9, 0x05, 0x07] = .instr (.ldaImm 0x05) [0x07] := by rfl

/-- One opcode of each length. -/
theorem witness_LengthIsKnownFromTheOpcode :
    (∃ row, lookupOpcode 0xE8#8 = some row ∧ decode [0xE8#8] = .instr .inx []) ∧
    (∃ row, lookupOpcode 0xA9#8 = some row ∧ decode [0xA9#8, 0x05] = .instr (.ldaImm 0x05) []) ∧
    ∃ row, lookupOpcode 0xAD#8 = some row ∧ decode [0xAD#8, 0x34, 0x12] = .instr (.ldaAbs 0x1234) [] :=
  ⟨⟨_, rfl, by rfl⟩, ⟨_, rfl, by rfl⟩, ⟨_, rfl, by rfl⟩⟩

/-- An instruction of three bytes that goes on at 0x0000. -/
theorem witness_StepRunsTheDecodedInstruction :
    decode (bytesAtPc busy) = .instr (.ldaAbs 0x1234) [] ∧ ∃ row, lookupOpcode (busy.mem.read busy.pc) = some row :=
  ⟨by rfl, _, rfl⟩

theorem witness_IllegalOpcodeIsAReportedOneByteNoOp :
    lookupOpcode ((boot 0xFFFF [0x02]).mem.read (boot 0xFFFF [0x02]).pc) = none := by rfl

/-- A step that has a next state, on an opcode of the table and on one outside it; and another memory that agrees at the four addresses the
first reads, 0xFFFE, 0xFFFF, 0x0000 and 0x1234. -/
theorem witness_StepReplaysOnItsMemory :
    (∃ t, step busy = .next t ∧ ∀ a v, Access.read a v ∈ t.accesses → (busy.mem.write 0x4000 0x55).read a = busy.mem.read a) ∧
    ∃ t, step (boot 0xFFFF [0x02]) = .next t := by
  refine ⟨⟨_, rfl, fun a v h => ?_⟩, _, rfl⟩
  have h' : Access.read a v ∈ [Access.read 0xFFFE 0xAD, .read 0xFFFF 0x34, .read 0x0000 0x12, .read 0x1234 0x00] := h
  simp only [List.mem_cons, List.not_mem_nil, or_false, Access.read.injEq] at h'
  rcases h' with ⟨rfl, -⟩ | ⟨rfl, -⟩ | ⟨rfl, -⟩ | ⟨rfl, -⟩ <;> rfl

theorem witness_StepOutputsAreCycleCostOrReport :
    ((∃ t, step busy = .next t) ∧ ∃ row, lookupOpcode (busy.mem.read busy.pc) = some row) ∧
    (∃ t, step (boot 0xFFFF [0x02]) = .next t) ∧ lookupOpcode ((boot 0xFFFF [0x02]).mem.read (boot 0xFFFF [0x02]).pc) = none :=
  ⟨⟨⟨_, rfl⟩, ⟨_, rfl⟩⟩, ⟨_, rfl⟩, rfl⟩

theorem witness_StepKeepsMemoryCanonical : Machine.Inv busy ∧ ∃ t, step busy = .next t :=
  ⟨witness_Inv, _, rfl⟩

/-- PHP and BRK with Break turned over, and an instruction that stores no SR, at SP = 0. -/
theorem witness_NothingTestsInterruptDecimalBreakOrBitFive :
    Flag.b ∈ [Flag.i, Flag.d, Flag.b, Flag.u] ∧
    (Machine.Inv ((boot 0x0200 [0x08]).setSp 0) ∧ storedSrAt ((boot 0x0200 [0x08]).setSp 0) = some 0x0100 ∧
      (∃ t, step ((boot 0x0200 [0x08]).setSp 0) = .next t) ∧ ∃ t, step (flipFlag .b ((boot 0x0200 [0x08]).setSp 0)) = .next t) ∧
    (Machine.Inv ((boot 0x0200 [0x00]).setSp 0) ∧ storedSrAt ((boot 0x0200 [0x00]).setSp 0) = some 0x01FE ∧
      (∃ t, step ((boot 0x0200 [0x00]).setSp 0) = .next t) ∧ ∃ t, step (flipFlag .b ((boot 0x0200 [0x00]).setSp 0)) = .next t) ∧
    (Machine.Inv busy ∧ storedSrAt busy = none ∧ (∃ t, step busy = .next t) ∧ ∃ t, step (flipFlag .b busy) = .next t) :=
  ⟨by decide, ⟨rfl, rfl, ⟨_, rfl⟩, ⟨_, rfl⟩⟩, ⟨rfl, rfl, ⟨_, rfl⟩, ⟨_, rfl⟩⟩, ⟨rfl, rfl, ⟨_, rfl⟩, ⟨_, rfl⟩⟩⟩

/-- One instruction for each clause: CPX leaves A, DEX leaves Y, DEY leaves X, TAX leaves SP. -/
theorem witness_RegistersAreWrittenOnlyByTheirListedInstructions :
    (writesA (.cpxImm 4) = false ∧ ∃ t, exec (.cpxImm 4) busy = .next t) ∧
    (Instr.dey.mnemonic ∉ [.ldx, .tax, .tsx, .inx, .dex] ∧ ∃ t, exec .dey busy = .next t) ∧
    (Instr.dex.mnemonic ∉ [.ldy, .tay, .iny, .dey] ∧ ∃ t, exec .dex busy = .next t) ∧
    (Instr.tax.mnemonic ∉ [.pha, .php, .pla, .plp, .jsr, .rts, .brk, .rti, .txs] ∧ ∃ t, exec .tax busy = .next t) :=
  ⟨⟨by decide, _, rfl⟩, ⟨by decide, _, rfl⟩, ⟨by decide, _, rfl⟩, ⟨by decide, _, rfl⟩⟩

/-- INC leaves C, CLC leaves Z and N, ADC leaves I, D, B and bit 5, CMP leaves V. -/
theorem witness_FlagsAreWrittenOnlyByTheirListedInstructions :
    ((Instr.incZp 0).mnemonic ∉ carryWriters ∧ ∃ t, exec (.incZp 0) busy = .next t) ∧
    (Instr.clc.mnemonic ∉ zeroWriters ∧ ∃ t, exec .clc busy = .next t) ∧
    ((Instr.adcImm 9).mnemonic ∉ [.brk, .sei, .cli, .plp, .rti] ∧ (Instr.adcImm 9).mnemonic ∉ [.sed, .cld, .plp, .rti] ∧
      (Instr.adcImm 9).mnemonic ∉ [.plp, .rti] ∧ ∃ t, exec (.adcImm 9) busy = .next t) ∧
    ((Instr.cmpImm 9).mnemonic ∉ [.adc, .sbc, .bit, .clv, .plp, .rti] ∧ ∃ t, exec (.cmpImm 9) busy = .next t) :=
  ⟨⟨by decide, _, rfl⟩, ⟨by decide, _, rfl⟩, ⟨by decide, by decide, by decide, _, rfl⟩, ⟨by decide, _, rfl⟩⟩

/-- ASL A writes no memory, a store does not move PC. -/
theorem witness_MemoryAndPcAreMovedOnlyByTheirListedInstructions :
    (writesMemory .aslAcc = false ∧ ∃ t, exec .aslAcc busy = .next t) ∧
    (movesPc (.staZp 0) = false ∧ ∃ t, exec (.staZp 0) busy = .next t) :=
  ⟨⟨by decide, _, rfl⟩, ⟨by decide, _, rfl⟩⟩

theorem witness_ResetMeetsTheInvariant : Memory.wf [(0x00, 0x12), (0xFFFF, 0x34)] = true := by rfl

/-- A result in a register, in memory and in neither (a compare), and an instruction that has none. -/
theorem witness_SetNzWritesZeroAndNegativeOnly :
    Machine.Inv busy ∧
    (Instr.tax.mnemonic ∉ [.bit, .plp, .rti] ∧ ∃ t, exec .tax busy = .next t ∧ nzResult .tax busy t = some 0x81) ∧
    ((Instr.incZp 0).mnemonic ∉ [.bit, .plp, .rti] ∧
      ∃ t, exec (.incZp 0) busy = .next t ∧ nzResult (.incZp 0) busy t = some 0x13) ∧
    ((Instr.cmpImm 0x80).mnemonic ∉ [.bit, .plp, .rti] ∧
      ∃ t, exec (.cmpImm 0x80) busy = .next t ∧ nzResult (.cmpImm 0x80) busy t = some 0x01) ∧
    (Instr.pha.mnemonic ∉ [.bit, .plp, .rti] ∧ ∃ t, exec .pha busy = .next t ∧ nzResult .pha busy t = none) :=
  ⟨witness_Inv, ⟨by decide, _, rfl, rfl⟩, ⟨by decide, _, rfl, rfl⟩, ⟨by decide, _, rfl, rfl⟩, ⟨by decide, _, rfl, rfl⟩⟩

/-- One instruction of each mode that has no operand byte. -/
theorem witness_EffectiveAddressesAreTheSpecified :
    (Instr.tax.operand = .implied ∨ Instr.tax.operand = .accumulator) ∧
    (Instr.rorAcc.operand = .implied ∨ Instr.rorAcc.operand = .accumulator) := by decide

/-- Both ends of the stack page. -/
theorem witness_PushWritesThenDecrements :
    (Machine.Inv busy ∧ (0x0100#16).toNat = 0x100 + busy.sp.toNat) ∧
    (Machine.Inv (busy.setSp 0xFF) ∧ (0x01FF#16).toNat = 0x100 + (busy.setSp 0xFF).sp.toNat) :=
  ⟨⟨witness_Inv, by decide⟩, ⟨witness_Inv, by decide⟩⟩

theorem witness_LoadsPutTheOperandInTheRegister :
    ((Instr.ldaImm 0).operand.source? = some (.imm 0) ∧ (Instr.ldaImm 0).mnemonic = .lda) ∧
    ((Instr.ldxZpy 0xFF).operand.source? = some (.mem (.zpy 0xFF)) ∧ (Instr.ldxZpy 0xFF).mnemonic = .ldx) ∧
    ((Instr.ldyAbsx 0xFFFF).operand.source? = some (.mem (.absx 0xFFFF)) ∧ (Instr.ldyAbsx 0xFFFF).mnemonic = .ldy) := by
  decide

theorem witness_StoresPutTheRegisterInMemory :
    Machine.Inv busy ∧ ((Instr.staIndy 0xFF).operand.memory? = some (.indy 0xFF) ∧ (Instr.staIndy 0xFF).mnemonic = .sta) ∧
    ((Instr.stxZpy 0xFF).operand.memory? = some (.zpy 0xFF) ∧ (Instr.stxZpy 0xFF).mnemonic = .stx) ∧
    ((Instr.styAbs 0xFFFF).operand.memory? = some (.abs 0xFFFF) ∧ (Instr.styAbs 0xFFFF).mnemonic = .sty) :=
  ⟨witness_Inv, by decide⟩

/-- Pushes with SP = 0 on a canonical memory. -/
theorem witness_StackInstructionsMoveOneByte : Machine.Inv busy ∧ busy.sp = 0 := ⟨witness_Inv, rfl⟩

theorem witness_LogicalInstructionsCombineBitwise :
    ((Instr.andImm 0).operand.source? = some (.imm 0) ∧ (Instr.andImm 0).mnemonic = .and) ∧
    ((Instr.oraIndx 0xFF).operand.source? = some (.mem (.indx 0xFF)) ∧ (Instr.oraIndx 0xFF).mnemonic = .ora) ∧
    ((Instr.eorAbsy 0xFFFF).operand.source? = some (.mem (.absy 0xFFFF)) ∧ (Instr.eorAbsy 0xFFFF).mnemonic = .eor) := by
  decide

theorem witness_BitTestsWithoutChangingA :
    (Instr.bitAbs 0xFFFF).mnemonic = .bit ∧ (Instr.bitAbs 0xFFFF).operand.memory? = some (.abs 0xFFFF) := by decide

theorem witness_IncAndDecChangeMemoryByOne :
    Machine.Inv busy ∧ ((Instr.incZpx 0xFF).operand.memory? = some (.zpx 0xFF) ∧ (Instr.incZpx 0xFF).mnemonic = .inc) ∧
    ((Instr.decAbs 0xFFFF).operand.memory? = some (.abs 0xFFFF) ∧ (Instr.decAbs 0xFFFF).mnemonic = .dec) :=
  ⟨witness_Inv, by decide⟩

theorem witness_InxIncrementsXInOneStep : (boot 0xFFFF [0xE8]).mem.read (boot 0xFFFF [0xE8]).pc = 0xE8#8 := by rfl

theorem witness_NopChangesNothingButPc : (boot 0xFFFF [0xEA]).mem.read (boot 0xFFFF [0xEA]).pc = 0xEA#8 := by rfl

/-- A pointer at the end of its page, at the end of the address space, and inside a page: one value of `hiAt` each. -/
theorem witness_JumpsSetPcToTheirTarget :
    ((0x02FF#16).toNat % 256 = 255 ∧ (0x0200 : Nat) = (0x02FF#16).toNat - 255) ∧
    ((0xFFFF#16).toNat % 256 = 255 ∧ (0xFF00 : Nat) = (0xFFFF#16).toNat - 255) ∧
    ((0x02FE#16).toNat % 256 ≠ 255 ∧ (0x02FF : Nat) = (0x02FE#16).toNat + 1) := by decide

theorem witness_CallsAndReturnsUseTheStack : Machine.Inv busy ∧ busy.sp = 0 := ⟨witness_Inv, rfl⟩

theorem witness_JsrThenRtsResumesAfterTheCall : Machine.Inv (busy.setSp 0x01) := witness_Inv

theorem witness_PhaThenPlaRestoresAAndSp : Machine.Inv (busy.setSp 0xFF) := witness_Inv

theorem witness_BrkTakesTheTrap : Machine.Inv (busy.setSp 0x01) := witness_Inv

theorem witness_BrkThenRtiResumesAfterTheBreak : Machine.Inv (busy.setSp 0x02) := witness_Inv

theorem witness_AdcAddsWithCarry :
    (Instr.adcImm 0xFF).mnemonic = .adc ∧ (Instr.adcImm 0xFF).operand.source? = some (.imm 0xFF) := by decide

theorem witness_SbcSubtractsWithBorrow :
    (Instr.sbcIndy 0xFF).mnemonic = .sbc ∧ (Instr.sbcIndy 0xFF).operand.source? = some (.mem (.indy 0xFF)) := by decide

theorem witness_DecimalFlagChangesNoArithmetic :
    ((Instr.adcImm 0x09).mnemonic = .adc ∨ (Instr.adcImm 0x09).mnemonic = .sbc) ∧ ∃ t, exec (.adcImm 0x09) busy = .next t :=
  ⟨by decide, _, rfl⟩

theorem witness_ComparesSetCarryZeroNegative :
    (Instr.cmpImm 0x81).operand.source? = some (.imm 0x81) ∧
      ((Instr.cmpImm 0x81).mnemonic = .cmp ∧ (0x81#8) = busy.a) ∧
    (Instr.cpxImm 0x00).operand.source? = some (.imm 0x00) ∧
      ((Instr.cpxImm 0x00).mnemonic = .cpx ∧ (0x04#8) = busy.x) ∧
    (Instr.cpyAbs 0xFFFF).operand.source? = some (.mem (.abs 0xFFFF)) ∧
      ((Instr.cpyAbs 0xFFFF).mnemonic = .cpy ∧ (0xFF#8) = busy.y) := by decide

theorem witness_ShiftsMoveOneBitThroughCarry :
    Machine.Inv busy ∧ (Instr.aslAcc.operand.place? = some .acc ∧ Instr.aslAcc.mnemonic = .asl) ∧
    ((Instr.lsrZp 0xFF).operand.place? = some (.mem (.zp 0xFF)) ∧ (Instr.lsrZp 0xFF).mnemonic = .lsr) ∧
    ((Instr.rolAbsx 0xFFFF).operand.place? = some (.mem (.absx 0xFFFF)) ∧ (Instr.rolAbsx 0xFFFF).mnemonic = .rol) ∧
    (Instr.rorAcc.operand.place? = some .acc ∧ Instr.rorAcc.mnemonic = .ror) :=
  ⟨witness_Inv, by decide⟩

theorem witness_NineRotationsRestoreAAndCarry :
    (Instr.rolAcc = .rolAcc ∨ Instr.rolAcc = .rorAcc) ∧ (Instr.rorAcc = .rolAcc ∨ Instr.rorAcc = .rorAcc) := by decide

/-- The condition held and not held, at the displacement's two ends. -/
theorem witness_BranchesMovePcWhenTheirConditionHolds :
    ((Instr.bcs 0x7F).operand = .relative 0x7F ∧ branchTest (Instr.bcs 0x7F).mnemonic = some (.c, true) ∧
      getFlag .c busy.sr = true) ∧
    ((Instr.bcc 0x80).operand = .relative 0x80 ∧ branchTest (Instr.bcc 0x80).mnemonic = some (.c, false) ∧
      getFlag .c busy.sr ≠ false) := by decide

theorem witness_FlagInstructionsWriteOneBit : flagEffect Instr.sed.mnemonic = some (.d, true) := by decide

/-- An instruction of three bytes stored across the top of the address space. -/
theorem witness_StoredWordIsTheNextInstruction :
    Machine.Inv busy ∧ decodeTableWord 24 0x1234AD = some (.ldaAbs 0x1234) := ⟨witness_Inv, by rfl⟩

/-! ### Reset and the host's access -/

/-- 10_state.md R35. -/
theorem test_reset_values :
    (State.reset.a, State.reset.x, State.reset.y, State.reset.sp, State.reset.sr, State.reset.pc) =
      (0xFF, 0xFF, 0xFF, 0xFF, 0xFF, 0x0000) := by rfl

/-- 60_exceptions.md R180: a value wider than the register is reduced to its width. -/
theorem test_port_write_reduces : portRead .a (portWrite .a 0x1FF busy) = 0xFF ∧ portRead .pc (portWrite .pc 0x12345 busy) = 0x2345 :=
  ⟨rfl, rfl⟩

/-- 92_eei_decisions.md D17, 70_reset_and_hazards.md R187: reset leaves memory, and the first step fetches at 0x0000. -/
theorem test_reset_then_step : after busy.assertReset (fun t => t.accesses.head?) = some (some (.read 0x0000 0x12)) := by
  rfl

end Sys2Proof.Tests
end

/-! The status register's Zero and Negative and the two stack primitives (10_state.md R15, R16, R23). First the kind of operand each
mnemonic has, then what each meaning leaves in Z and N, then the frame of a stack move; the obligations O23 to O25 follow from these. -/

namespace Sys2Proof.Machine

open Sys2Proof.Claims

/-! ### The kind of operand an instruction has -/

/-- Every instruction has one of the modes its mnemonic's table lists (30_encoding.md R72). -/
theorem mode_mem_legalModes (i : Instr) : i.operand.mode ∈ legalModes i.mnemonic := by
  have hw : i.wellFormed = true := by cases i <;> rfl
  exact of_decide_eq_true hw

theorem source?_of_mode {o : Operand} (h : o.mode ∉ [.imp, .acc, .ind, .rel]) : ∃ src, o.source? = some src := by
  cases o with
  | immediate v => exact ⟨.imm v, rfl⟩
  | memory m => exact ⟨.mem m, rfl⟩
  | implied | accumulator | indirect | relative => exact absurd (by simp [Operand.mode]) h

theorem memory?_of_mode {o : Operand} (h : o.mode ∉ [.imp, .acc, .imm, .ind, .rel]) : ∃ m, o.memory? = some m := by
  cases o with
  | memory m => exact ⟨m, rfl⟩
  | implied | accumulator | immediate | indirect | relative => exact absurd (by simp [Operand.mode]) h

theorem place?_of_mode {o : Operand} (h : o.mode ∉ [.imp, .imm, .ind, .rel]) : ∃ p, o.place? = some p := by
  cases o with
  | accumulator => exact ⟨.acc, rfl⟩
  | memory m => exact ⟨.mem m, rfl⟩
  | implied | immediate | indirect | relative => exact absurd (by simp [Operand.mode]) h

/-- An instruction that consumes an operand value has one (30_encoding.md R69). -/
theorem source?_of_operandReader {i : Instr} (h : i.mnemonic ∈ operandReaders) : ∃ src, i.operand.source? = some src := by
  have hmodes : ∀ n ∈ operandReaders, ∀ md ∈ legalModes n, md ∉ [Mode.imp, .acc, .ind, .rel] := by decide
  exact source?_of_mode (hmodes _ h _ (mode_mem_legalModes i))

/-- INC and DEC work on a byte of memory (44_incdec.md R108, R109). -/
theorem memory?_of_incDec {i : Instr} (h : i.mnemonic ∈ [.inc, .dec]) : ∃ m, i.operand.memory? = some m := by
  have hmodes : ∀ n ∈ [Mnemonic.inc, .dec], ∀ md ∈ legalModes n, md ∉ [Mode.imp, .acc, .imm, .ind, .rel] := by decide
  exact memory?_of_mode (hmodes _ h _ (mode_mem_legalModes i))

/-- A read-modify-write instruction works on A or on a byte of memory. -/
theorem place?_of_modifier {i : Instr} (h : i.mnemonic ∈ modifiers) : ∃ p, i.operand.place? = some p := by
  have hmodes : ∀ n ∈ modifiers, ∀ md ∈ legalModes n, md ∉ [Mode.imp, .imm, .ind, .rel] := by decide
  exact place?_of_mode (hmodes _ h _ (mode_mem_legalModes i))

theorem place?_eq_of_memory? {o : Operand} {m : MemOperand} (h : o.memory? = some m) : o.place? = some (.mem m) := by
  cases o with
  | memory m =>
    cases h
    rfl
  | implied | accumulator | immediate | indirect | relative => cases h

/-! ### `SetNZ` -/

theorem getFlag_z_setNZ (v sr : Byte) : getFlag .z (setNZ v sr) = decide (v.toNat = 0) := by
  simp [← BitVec.toNat_inj]

theorem getFlag_n_setNZ (v sr : Byte) : getFlag .n (setNZ v sr) = decide (128 ≤ v.toNat) := by
  simp [BitVec.msb_eq_decide]

/-- Whatever else an operation did to SR first: one that ends with `SetNZ` of `v` leaves Z and N as R23 gives them for `v`. -/
theorem nzOf_of_sr {v r : Byte} {t : State} (h : t.sr = setNZ v r) : NzOf v t := by
  rw [NzOf, h]
  exact ⟨getFlag_z_setNZ v r, getFlag_n_setNZ v r⟩

theorem nzOf_updNZ (v : Byte) (s : State) : NzOf v (updNZ v s) := nzOf_of_sr rfl

theorem nzOf_addA (src : Source) (s : State) : NzOf (addA src s).a (addA src s) := nzOf_of_sr rfl

theorem nzOf_subA (src : Source) (s : State) : NzOf (subA src s).a (subA src s) := nzOf_of_sr rfl

theorem nzOf_compareWith (r : Byte) (src : Source) (s : State) : NzOf (r - (readSource src s).1) (compareWith r src s) :=
  nzOf_of_sr rfl

/-- INC and DEC take Z and N from the byte they leave in memory. -/
theorem nzOf_modifyMem (f : Byte → Byte) (m : MemOperand) {s : State} (h : Inv s) :
    NzOf (placeValueAfter (.mem m) s (modifyMem f m s)) (modifyMem f m s) := by
  simp only [placeValueAfter, modifyMem_eq, Memory.read_write_same _ _ _ h]
  exact nzOf_of_sr rfl

/-- Shifts and rotates take Z and N from what they leave in their place. -/
theorem nzOf_shiftPlace (f : Byte → Bool → ShiftResult) (p : Place) {s : State} (h : Inv s) :
    NzOf (placeValueAfter p s (shiftPlace f p s)) (shiftPlace f p s) := by
  cases p with
  | acc => exact nzOf_of_sr rfl
  | mem m =>
    simp only [placeValueAfter, shiftPlace_mem_eq, Memory.read_write_same _ _ _ h]
    exact nzOf_of_sr rfl

/-! ### Instructions that have a result -/

/-- The mnemonics whose result is left in A, whatever their mode. -/
def resultInA : List Mnemonic := [.lda, .txa, .tya, .pla, .and, .ora, .eor, .adc, .sbc]

/-- The mnemonics whose result is left in X. -/
def resultInX : List Mnemonic := [.ldx, .tax, .tsx, .inx, .dex]

/-- The mnemonics whose result is left in Y. -/
def resultInY : List Mnemonic := [.ldy, .tay, .iny, .dey]

/-- What a meaning leaves whatever its source, an instruction that has a source leaves. -/
theorem atSource_of_forall {P : State → Prop} {o : Operand} {f : Source → State → State} {s : State}
    (ho : ∃ src, o.source? = some src) (hf : ∀ src, P (f src s)) : P (atSource o f s) := by
  obtain ⟨src, hsrc⟩ := ho
  rw [atSource_some o f s src hsrc]
  exact hf src

theorem nzOf_resultInA {i : Instr} (h : i.mnemonic ∈ resultInA) (s : State) :
    NzOf (effect i.mnemonic i.operand s).a (effect i.mnemonic i.operand s) := by
  have hsrc := @source?_of_operandReader i
  generalize i.mnemonic = n at h hsrc ⊢
  cases n with
  | lda | and | ora | eor =>
    exact atSource_of_forall (P := fun t => NzOf t.a t) (hsrc (by decide)) fun _ => nzOf_updNZ _ _
  | adc => exact atSource_of_forall (P := fun t => NzOf t.a t) (hsrc (by decide)) fun src => nzOf_addA src s
  | sbc => exact atSource_of_forall (P := fun t => NzOf t.a t) (hsrc (by decide)) fun src => nzOf_subA src s
  | txa | tya | pla => exact nzOf_updNZ _ _
  | _ => exact absurd h (by decide)

theorem nzOf_resultInX {i : Instr} (h : i.mnemonic ∈ resultInX) (s : State) :
    NzOf (effect i.mnemonic i.operand s).x (effect i.mnemonic i.operand s) := by
  have hsrc := @source?_of_operandReader i
  generalize i.mnemonic = n at h hsrc ⊢
  cases n with
  | ldx => exact atSource_of_forall (P := fun t => NzOf t.x t) (hsrc (by decide)) fun _ => nzOf_updNZ _ _
  | tax | tsx | inx | dex => exact nzOf_updNZ _ _
  | _ => exact absurd h (by decide)

theorem nzOf_resultInY {i : Instr} (h : i.mnemonic ∈ resultInY) (s : State) :
    NzOf (effect i.mnemonic i.operand s).y (effect i.mnemonic i.operand s) := by
  have hsrc := @source?_of_operandReader i
  generalize i.mnemonic = n at h hsrc ⊢
  cases n with
  | ldy => exact atSource_of_forall (P := fun t => NzOf t.y t) (hsrc (by decide)) fun _ => nzOf_updNZ _ _
  | tay | iny | dey => exact nzOf_updNZ _ _
  | _ => exact absurd h (by decide)

/-- The result of a read-modify-write instruction is the byte it leaves in its place. -/
theorem nzOf_modifier {i : Instr} {p : Place} {s : State} (h : i.mnemonic ∈ modifiers) (hp : i.operand.place? = some p)
    (hinv : Inv s) : NzOf (placeValueAfter p s (effect i.mnemonic i.operand s)) (effect i.mnemonic i.operand s) := by
  have hmem := @memory?_of_incDec i
  generalize i.mnemonic = n at h hmem ⊢
  cases n with
  | inc | dec =>
    obtain ⟨m, hm⟩ := hmem (by decide)
    obtain rfl : p = .mem m := Option.some.inj (hp.symm.trans (place?_eq_of_memory? hm))
    rw [effect, atMemory_some _ _ _ _ hm]
    exact nzOf_modifyMem _ m hinv
  | asl | lsr | rol | ror =>
    rw [effect, atPlace_some _ _ _ _ hp]
    exact nzOf_shiftPlace _ p hinv
  | _ => exact absurd h (by decide)

/-! ### Instructions that have none -/

@[simp] theorem storeTo_sr (m : MemOperand) (v : Byte) (s : State) : (storeTo m v s).sr = s.sr := by
  rw [storeTo_eq]

theorem atMemory_sr {f : MemOperand → State → State} (hf : ∀ m s, (f m s).sr = s.sr) (o : Operand) (s : State) :
    (atMemory o f s).sr = s.sr := by
  unfold atMemory
  split
  · exact hf _ s
  · rfl

@[simp] theorem branchIf_sr (cond : Bool) (d : Byte) (s : State) : (branchIf cond d s).sr = s.sr := by
  rw [branchIf_eq]

@[simp] theorem atRelative_sr (o : Operand) (cond : Bool) (s : State) : (atRelative o cond s).sr = s.sr := by
  unfold atRelative
  split <;> simp

@[simp] theorem atJump_sr (o : Operand) (s : State) : (atJump o s).sr = s.sr := by
  unfold atJump
  split <;> rfl

@[simp] theorem atCall_sr (o : Operand) (s : State) : (atCall o s).sr = s.sr := by
  unfold atCall
  split <;> rfl

/-- A flag instruction writes the flag its table row names (49_branch_flag.md). -/
theorem effect_sr_of_flagEffect {n : Mnemonic} {f : Flag} {b : Bool} (h : flagEffect n = some (f, b)) (o : Operand) (s : State) :
    (effect n o s).sr = putFlag f b s.sr := by
  cases n with
  | clc | sec | cli | sei | clv | cld | sed =>
    cases h
    rfl
  | _ => cases h

/-- A mnemonic outside the writers of Z and N leaves SR alone, or writes one other flag in it. -/
theorem effect_sr_of_not_zeroWriter {n : Mnemonic} (h : n ∉ zeroWriters) (o : Operand) (s : State) :
    (effect n o s).sr = s.sr ∨ ∃ f b, (effect n o s).sr = putFlag f b s.sr ∧ f ∉ [.z, .n] := by
  cases n with
  | sta | stx | sty => exact .inl (atMemory_sr (fun m s => storeTo_sr m _ s) o s)
  | txs | pha | php | rts | nop => exact .inl rfl
  | jmp => exact .inl (atJump_sr o s)
  | jsr => exact .inl (atCall_sr o s)
  | bpl | bmi | bvc | bvs | bcc | bcs | bne | beq => exact .inl (atRelative_sr o _ s)
  | brk => exact .inr ⟨.i, true, congrArg State.sr (takeBreak_eq s), by decide⟩
  | clc | sec | cli | sei | clv | cld | sed => exact .inr ⟨_, _, effect_sr_of_flagEffect rfl o s, by decide⟩
  | _ => exact absurd (by decide) h

theorem getFlag_effect_of_not_zeroWriter {n : Mnemonic} {g : Flag} (h : n ∉ zeroWriters) (hg : g ∈ [.z, .n]) (o : Operand)
    (s : State) : getFlag g (effect n o s).sr = getFlag g s.sr := by
  rcases effect_sr_of_not_zeroWriter h o s with hsr | ⟨f, b, hsr, hf⟩
  · rw [hsr]
  · have hgf : g ≠ f := fun e => hf (e ▸ hg)
    rw [hsr, getFlag_putFlag, if_neg hgf]

/-- The writers of Z and N other than BIT, PLP and RTI have a result. -/
theorem nzResult_ne_none {i : Instr} (h : i.mnemonic ∈ zeroWriters) (hn : i.mnemonic ∉ [.bit, .plp, .rti]) (s t : State) :
    nzResult i s t ≠ none := by
  have hlisted : ∀ n ∈ zeroWriters, n ∉ [.bit, .plp, .rti] → n ∈ resultInA ∨ n ∈ resultInX ∨ n ∈ resultInY ∨
      n ∈ modifiers ∨ n = .cmp ∨ n = .cpx ∨ n = .cpy := by decide
  intro hnone
  unfold nzResult at hnone
  split_ifs at hnone with hA hX hY hM hcmp hcpx hcpy
  · obtain ⟨p, hp⟩ := place?_of_modifier hM
    simp [hp] at hnone
  · obtain ⟨src, hsrc⟩ := source?_of_operandReader (i := i) (by rw [hcmp]; decide)
    simp [hsrc] at hnone
  · obtain ⟨src, hsrc⟩ := source?_of_operandReader (i := i) (by rw [hcpx]; decide)
    simp [hsrc] at hnone
  · obtain ⟨src, hsrc⟩ := source?_of_operandReader (i := i) (by rw [hcpy]; decide)
    simp [hsrc] at hnone
  · rcases hlisted _ h hn with h | h | h | h | h | h | h <;> contradiction

/-- The result an instruction has is what it leaves Z and N of. -/
theorem nzOf_nzResult {i : Instr} {s : State} {v : Byte} (h : nzResult i s (effect i.mnemonic i.operand s) = some v)
    (hinv : Inv s) : NzOf v (effect i.mnemonic i.operand s) := by
  unfold nzResult at h
  split_ifs at h with hA hX hY hM hcmp hcpx hcpy
  · cases h
    exact nzOf_resultInA hA s
  · cases h
    exact nzOf_resultInX hX s
  · cases h
    exact nzOf_resultInY hY s
  · obtain ⟨p, hp, rfl⟩ := Option.map_eq_some_iff.1 h
    exact nzOf_modifier hM hp hinv
  · obtain ⟨src, hsrc, rfl⟩ := Option.map_eq_some_iff.1 h
    rw [hcmp, effect, atSource_some _ _ _ _ hsrc]
    exact nzOf_compareWith s.a src s
  · obtain ⟨src, hsrc, rfl⟩ := Option.map_eq_some_iff.1 h
    rw [hcpx, effect, atSource_some _ _ _ _ hsrc]
    exact nzOf_compareWith s.x src s
  · obtain ⟨src, hsrc, rfl⟩ := Option.map_eq_some_iff.1 h
    rw [hcpy, effect, atSource_some _ _ _ _ hsrc]
    exact nzOf_compareWith s.y src s

/-! ### The stack primitives -/

/-- The stack slot as the number R15 and R16 give for it. -/
theorem stackAddr_eq_ofNat (sp : Byte) : stackAddr sp = BitVec.ofNat 16 (0x100 + sp.toNat) := by
  rw [← stackAddr_toNat, BitVec.ofNat_toNat, BitVec.setWidth_eq]

/-- A move of the stack: SP, the listed bytes of memory and the accesses made are all that differ. -/
theorem frame_stackMove {s : State} {cells : List Addr} {m : Memory} (sp : Byte) (l : List Access)
    (hm : ∀ b, b ∉ cells → m.read b = s.mem.read b) :
    Frame [.sp] [] cells s { s with sp := sp, mem := m, accesses := l } where
  keepsRegs r _ hr := by
    cases r with
    | sp => exact absurd (List.mem_singleton.2 rfl) hr
    | a | x | y | sr | pc => rfl
  keepsFlags _ _ := rfl
  keepsMem := hm
  keepsOutputs := ⟨rfl, rfl⟩

/-- Settles O23: with the kind of operand each mnemonic has, an instruction's result is what it leaves Z and N of, and one outside
the writers of Z leaves both alone. -/
theorem setNzWritesZeroAndNegativeOnly : Obligations.SetNzWritesZeroAndNegativeOnly := by
  refine ⟨fun v sr => ⟨getFlag_z_setNZ v sr, getFlag_n_setNZ v sr, ?_, fun f hz hn => ?_⟩, fun i s t hi ht => ?_⟩
  · rw [getFlag_z_setNZ, getFlag_n_setNZ, decide_eq_true_eq, decide_eq_true_eq]
    omega
  · rw [getFlag_setNZ, if_neg hn, if_neg hz]
  · rw [exec_eq] at ht
    cases ht
    refine ⟨fun v hv hinv => nzOf_nzResult hv hinv, fun hnone => ?_⟩
    have hw : i.mnemonic ∉ zeroWriters := fun hz => nzResult_ne_none hz hi s _ hnone
    exact ⟨getFlag_effect_of_not_zeroWriter hw (by decide) _ s, getFlag_effect_of_not_zeroWriter hw (by decide) _ s⟩

/-- Settles O24: `push8_eq`, and the write at the slot of the old SP. -/
theorem pushWritesThenDecrements : Obligations.PushWritesThenDecrements := by
  intro v s
  rw [← stackAddr_eq_ofNat, push8_eq]
  refine ⟨fun hinv a ha => ?_, ?_, rfl, ?_⟩
  · obtain rfl : a = stackAddr s.sp := BitVec.eq_of_toNat_eq (ha.trans (stackAddr_toNat s.sp).symm)
    exact Memory.read_write_same _ _ _ hinv
  · have := s.sp.isLt
    simp only [BitVec.toNat_sub, BitVec.toNat_ofNat]
    omega
  · exact frame_stackMove _ _ fun b hb => Memory.read_write_other _ _ _ _ fun e => hb (List.mem_singleton.2 e)

/-- Settles O25: `pop8_snd`, with the slot of the new SP as a number. -/
theorem popIncrementsThenReads : Obligations.PopIncrementsThenReads := by
  intro s
  have hsp : (s.sp + 1#8).toNat = (s.sp.toNat + 1) % 256 := BitVec.toNat_add _ _
  rw [← hsp, ← stackAddr_eq_ofNat, pop8_snd]
  exact ⟨rfl, rfl, rfl, frame_stackMove _ _ fun _ _ => rfl⟩

end Sys2Proof.Machine

/-! The illegal opcode (30_encoding.md R75): `step_illegal` says what the step answers there; the obligation O8 reads it off. -/

namespace Sys2Proof.Machine

/-- Settles O8: the next state of `step_illegal` differs from `s` in PC and the outputs alone, and PC is 16 bits wide. -/
theorem illegalOpcodeIsAReportedOneByteNoOp : Obligations.IllegalOpcodeIsAReportedOneByteNoOp := by
  intro s hnone
  have hpc : (s.pc + 1#16).toNat = (s.pc.toNat + 1) % 65536 := BitVec.toNat_add _ _
  exact ⟨_, step_illegal s hnone, rfl, hpc, rfl, rfl, rfl, rfl, rfl, rfl⟩

end Sys2Proof.Machine

/-! NOP (46_system.md R121): the table's row for the byte 0xEA, then the fetch of that row's one byte; the obligation O43 joins the two. -/

namespace Sys2Proof.Machine

/-- The dispatch table's entry for NOP stands at the index `Listed.nop` names (30_encoding.md R72). -/
theorem lookupOpcode_nop : lookupOpcode 0xEA#8 = some ⟨0xEA#8, .f1 .nop, 2⟩ :=
  have hrow : opcodeTable[139]? = some ⟨0xEA#8, .f1 .nop, 2⟩ := rfl
  lookupOpcode_of_mem (List.mem_of_getElem? hrow)

/-- Settles O43: the step is NOP's handler at the state `fetchInstr_f1` leaves, and the handler answers the state it is given. -/
theorem nopChangesNothingButPc : Obligations.NopChangesNothingButPc := by
  have hexec : ∀ s : State, exec .nop s = .next s := exec_eq .nop
  refine ⟨rfl, hexec, fun s hop => ?_⟩
  have hrow : lookupOpcode (s.mem.read s.pc) = some ⟨0xEA#8, .f1 .nop, 2⟩ := hop ▸ lookupOpcode_nop
  rw [step_legal s _ _ (fetchInstr_f1 s _ .nop hrow rfl), hexec, hop]
  rfl

end Sys2Proof.Machine

/-! The encoding (30_encoding.md): the dispatch table's rows read as instructions, in both directions. From an instruction to
its row it is `Listed`; from a row to its instructions it is `Row.Sound`. The round trip (O1, O2), the length (O4), the cycle
cost (O6), the fetch of a decoded instruction (O7) and the word stored at PC (O52) are these two and the lookup of a row. -/

namespace Sys2Proof

open Sys2Proof.Machine Sys2Proof.Laws Sys2Proof.Claims

/-- The instruction a form makes of an operand word; a form of two bytes takes the low byte alone, one of one byte takes
neither. -/
def Form.instrAt (w : Addr) : Form → Instr
  | .f1 i => i
  | .f2 make => make (loByte w)
  | .f3 make => make w

/-- The operand bytes from which a form makes that instruction. -/
def Form.operandBytes (w : Addr) : Form → List Byte
  | .f1 _ => []
  | .f2 _ => [loByte w]
  | .f3 _ => wordBytes w

theorem Form.length_bounds (f : Form) : 1 ≤ f.length ∧ f.length ≤ 3 := by
  cases f <;> simp [Form.length]

/-- What completes a form is its operand bytes, whatever follows them. -/
theorem completeForm_instr {op : Byte} {f : Form} {tail rest : List Byte} {i : Instr}
    (h : completeForm op f tail = .instr i rest) : ∃ w, i = f.instrAt w ∧ tail = f.operandBytes w ++ rest := by
  cases f with
  | f1 j =>
    cases h
    exact ⟨0, rfl, rfl⟩
  | f2 make =>
    cases tail with
    | nil => cases h
    | cons b tail =>
      cases h
      exact ⟨wordOf 0 b, by simp [Form.instrAt], by simp [Form.operandBytes]⟩
  | f3 make =>
    match tail, h with
    | [], h => cases h
    | [_], h => cases h
    | lo :: hi :: tail, h =>
      cases h
      exact ⟨wordOf hi lo, rfl, by simp [Form.operandBytes, wordBytes]⟩

/-- A row of the table says of its instructions what the tables of the family files say: their opcode, their operand bytes and
their published cost (30_encoding.md R56, R72, 70_reset_and_hazards.md R191). -/
def Row.Sound (row : Row) : Prop :=
  ∀ w, (row.form.instrAt w).opcode = row.opcode ∧ (row.form.instrAt w).operand.bytes = row.form.operandBytes w ∧
    row.cycles = publishedCycles (row.form.instrAt w).mnemonic (row.form.instrAt w).mode

theorem opcodeTable_sound : ∀ row ∈ opcodeTable, row.Sound := by
  simp only [opcodeTable, opcodeRow0, opcodeRow1, opcodeRow2, opcodeRow3, opcodeRow4, opcodeRow5, opcodeRow6, opcodeRow7,
    opcodeRow8, opcodeRow9, opcodeRowA, opcodeRowB, opcodeRowC, opcodeRowD, opcodeRowE, opcodeRowF, List.cons_append,
    List.nil_append, List.forall_mem_cons, List.not_mem_nil, false_imp_iff, implies_true,
    and_true]
  and_intros <;> exact fun _ => ⟨rfl, rfl, rfl⟩

theorem lookupOpcode_sound {op : Byte} {row : Row} (h : lookupOpcode op = some row) : row.opcode = op ∧ row.Sound :=
  ⟨(lookupOpcode_some h).2, opcodeTable_sound row (lookupOpcode_some h).1⟩

/-- Every instruction has its row. -/
theorem listed (i : Instr) : Listed.Statement i :=
  i.casesOn (motive := Listed.Statement)
    Listed.ldaImm Listed.ldaZp Listed.ldaZpx Listed.ldaAbs Listed.ldaAbsx Listed.ldaAbsy Listed.ldaIndx Listed.ldaIndy
    Listed.ldxImm Listed.ldxZp Listed.ldxZpy Listed.ldxAbs Listed.ldxAbsy Listed.ldyImm Listed.ldyZp Listed.ldyZpx
    Listed.ldyAbs Listed.ldyAbsx Listed.staZp Listed.staZpx Listed.staAbs Listed.staAbsx Listed.staAbsy Listed.staIndx
    Listed.staIndy Listed.stxZp Listed.stxZpy Listed.stxAbs Listed.styZp Listed.styZpx Listed.styAbs Listed.tax Listed.txa
    Listed.tay Listed.tya Listed.tsx Listed.txs Listed.pha Listed.php Listed.pla Listed.plp Listed.andImm Listed.andZp
    Listed.andZpx Listed.andAbs Listed.andAbsx Listed.andAbsy Listed.andIndx Listed.andIndy Listed.oraImm Listed.oraZp
    Listed.oraZpx Listed.oraAbs Listed.oraAbsx Listed.oraAbsy Listed.oraIndx Listed.oraIndy Listed.eorImm Listed.eorZp
    Listed.eorZpx Listed.eorAbs Listed.eorAbsx Listed.eorAbsy Listed.eorIndx Listed.eorIndy Listed.bitZp Listed.bitAbs
    Listed.incZp Listed.incZpx Listed.incAbs Listed.incAbsx Listed.decZp Listed.decZpx Listed.decAbs Listed.decAbsx Listed.inx
    Listed.dex Listed.iny Listed.dey Listed.jmpAbs Listed.jmpInd Listed.jsr Listed.rts Listed.brk Listed.nop Listed.rti
    Listed.adcImm Listed.adcZp Listed.adcZpx Listed.adcAbs Listed.adcAbsx Listed.adcAbsy Listed.adcIndx Listed.adcIndy
    Listed.sbcImm Listed.sbcZp Listed.sbcZpx Listed.sbcAbs Listed.sbcAbsx Listed.sbcAbsy Listed.sbcIndx Listed.sbcIndy
    Listed.cmpImm Listed.cmpZp Listed.cmpZpx Listed.cmpAbs Listed.cmpAbsx Listed.cmpAbsy Listed.cmpIndx Listed.cmpIndy
    Listed.cpxImm Listed.cpxZp Listed.cpxAbs Listed.cpyImm Listed.cpyZp Listed.cpyAbs Listed.aslAcc Listed.aslZp Listed.aslZpx
    Listed.aslAbs Listed.aslAbsx Listed.lsrAcc Listed.lsrZp Listed.lsrZpx Listed.lsrAbs Listed.lsrAbsx Listed.rolAcc
    Listed.rolZp Listed.rolZpx Listed.rolAbs Listed.rolAbsx Listed.rorAcc Listed.rorZp Listed.rorZpx Listed.rorAbs
    Listed.rorAbsx Listed.bpl Listed.bmi Listed.bvc Listed.bvs Listed.bcc Listed.bcs Listed.bne Listed.beq Listed.clc
    Listed.sec Listed.cli Listed.sei Listed.clv Listed.cld Listed.sed

/-- The row of an instruction, as the lookup of its opcode finds it. -/
theorem exists_row (i : Instr) : ∃ row, lookupOpcode i.opcode = some row ∧ row.form.length = i.length ∧
    ∀ rest, completeForm i.opcode row.form (i.operand.bytes ++ rest) = .instr i rest := by
  obtain ⟨k, row, hk, hop, hlen, hc⟩ := listed i
  exact ⟨row, hop ▸ lookupOpcode_of_mem (List.mem_of_getElem? hk), hlen, hc⟩

/-- What decodes behind an opcode byte is an instruction of that byte's row, from its operand bytes. -/
theorem decode_eq_instr {op : Byte} {tail rest : List Byte} {i : Instr} {row : Row} (hrow : lookupOpcode op = some row)
    (h : decode (op :: tail) = .instr i rest) : ∃ w, i = row.form.instrAt w ∧ tail = row.form.operandBytes w ++ rest := by
  simp only [decode, hrow] at h
  exact completeForm_instr h

/-- An instruction that decodes has the opcode byte it stands behind, and that byte's row has its length. -/
theorem opcode_of_decode {op : Byte} {tail rest : List Byte} {i : Instr} {row : Row} (hrow : lookupOpcode op = some row)
    (h : decode (op :: tail) = .instr i rest) : i.opcode = op ∧ row.form.length = i.length := by
  obtain ⟨w, rfl, -⟩ := decode_eq_instr hrow h
  obtain ⟨hop, hsound⟩ := lookupOpcode_sound hrow
  have hi : (row.form.instrAt w).opcode = op := (hsound w).1.trans hop
  obtain ⟨row', hrow', hlen, -⟩ := exists_row (row.form.instrAt w)
  obtain rfl : row = row' := Option.some.inj (hrow.symm.trans (hi ▸ hrow'))
  exact ⟨hi, hlen⟩

theorem Operand.bytes_length (o : Operand) : o.bytes.length + 1 = modeLength o.mode := by
  cases o with
  | memory m => cases m <;> rfl
  | implied | accumulator | immediate | indirect | relative => rfl

/-- The bytes of an instruction are as many as its mode says (30_encoding.md R57). -/
theorem length_encode (i : Instr) : (encode i).length = i.length := i.operand.bytes_length

/-- Settles O1: the lookup of an instruction's opcode finds its row, and its operand bytes complete that row's form. -/
theorem encodedInstructionsDecodeBack : Obligations.EncodedInstructionsDecodeBack := by
  intro i rest
  obtain ⟨row, hrow, -, hc⟩ := exists_row i
  simp only [encode, List.cons_append, decode, hrow]
  exact hc rest

/-- Settles O2: what decodes is an instruction of a row, and every row is sound. -/
theorem decodedBytesAreTheEncoding : Obligations.DecodedBytesAreTheEncoding := by
  intro bytes rest i h
  obtain ⟨op, tail, row, rfl, hrow, hc⟩ := decode_instr h
  obtain ⟨w, rfl, rfl⟩ := completeForm_instr hc
  obtain ⟨hop, hsound⟩ := lookupOpcode_sound hrow
  obtain ⟨hi, hbytes, -⟩ := hsound w
  rw [encode, hi, hop, hbytes, List.cons_append]

/-- Settles O4: a decoded instruction has its row's length by `opcode_of_decode`, and the bytes taken are its encoding (O2). -/
theorem lengthIsKnownFromTheOpcode : Obligations.LengthIsKnownFromTheOpcode := by
  intro op row hrow
  refine ⟨row.form.length_bounds, fun tail rest i h => ?_⟩
  have hlen := (opcode_of_decode hrow h).2
  refine ⟨hlen.symm, ?_⟩
  rw [decodedBytesAreTheEncoding _ _ _ h, List.length_append, length_encode, hlen]

/-- Settles O6: an instruction is one of its row's, and every row is sound. -/
theorem cycleTableIsThePublishedOne : Obligations.CycleTableIsThePublishedOne := by
  intro i
  obtain ⟨row, hrow, -, hc⟩ := exists_row i
  obtain ⟨w, hi, -⟩ := completeForm_instr (hc [])
  have hcost := ((lookupOpcode_sound hrow).2 w).2.2
  exact ⟨row, hrow, hi ▸ hcost⟩

theorem lookupOpcode_eq_none_iff (op : Byte) : lookupOpcode op = none ↔ op ∉ opcodeTable.map (·.opcode) := by
  simp [lookupOpcode]

/-- Settles O3: every byte is in exactly one of the two lists. -/
theorem illegalOpcodesAreTheHundredAndFive : Obligations.IllegalOpcodesAreTheHundredAndFive := by
  have hsplit : ∀ op : Byte, op ∉ opcodeTable.map (·.opcode) ↔ op ∈ illegalOpcodes := by decide +kernel
  exact ⟨fun op => (lookupOpcode_eq_none_iff op).trans (hsplit op), rfl, opcodeTable_length⟩

/-- Settles O5: each word is the encoding of its instruction (O1), and 0x80 is one of the illegal opcodes (O3). -/
theorem wordsOfEachFamilyDecode : Obligations.WordsOfEachFamilyDecode := by
  have hback := encodedInstructionsDecodeBack
  have hillegal : lookupOpcode 0b10000000 = none := (illegalOpcodesAreTheHundredAndFive.1 _).2 (by decide)
  refine ⟨hback (.ldaAbsx 0x1234) [], hback (.staIndy 0x30) [], hback .tsx [], hback .php [], hback (.eorIndx 0x20) [],
    hback (.decAbsx 0x0200) [], hback (.jmpInd 0x02FF) [], hback .brk [0xEA], hback (.sbcImm 0x80) [],
    hback (.rorZpx 0x50) [], hback (.bne 0xFE) [], ?_⟩
  simp only [decode, hillegal]

end Sys2Proof

/-! The fetch of a step: what `fetchInstr` answers for an opcode with a row, in one form for the three lengths, and the step
over it. The obligations about what a step runs (O7, O52), about its outputs (O12) and about its start (O13, O19, O20) follow.
-/

namespace Sys2Proof.Machine

open Sys2Proof.Claims

theorem length_instrAt {op : Byte} {row : Row} (hrow : lookupOpcode op = some row) (w : Addr) :
    (row.form.instrAt w).length = row.form.length := by
  obtain ⟨-, hbytes, -⟩ := (lookupOpcode_sound hrow).2 w
  rw [← length_encode, encode, List.length_cons, hbytes]
  cases row.form <;> rfl

/-- The two bytes after the opcode at PC, as the operand word they are for a form of three bytes. -/
def operandWord (s : State) : Addr := wordOf (s.mem.read (s.pc + 2#16)) (s.mem.read (s.pc + 1#16))

/-- The instruction a step runs where the opcode at PC has the row `row`. -/
def fetchedInstr (row : Row) (s : State) : Instr := row.form.instrAt (operandWord s)

theorem fetchReads_one (s : State) : fetchReads 1 s = [.read s.pc (s.mem.read s.pc)] := by
  simp [fetchReads]

theorem fetchReads_two (s : State) :
    fetchReads 2 s = [.read s.pc (s.mem.read s.pc), .read (s.pc + 1#16) (s.mem.read (s.pc + 1#16))] := by
  simp [fetchReads, List.range_succ]

theorem fetchReads_three (s : State) :
    fetchReads 3 s = [.read s.pc (s.mem.read s.pc), .read (s.pc + 1#16) (s.mem.read (s.pc + 1#16)),
      .read (s.pc + 2#16) (s.mem.read (s.pc + 2#16))] := by
  simp [fetchReads, List.range_succ]

/-- The fetch of an opcode with a row, whatever the length of its form. -/
theorem fetchInstr_legal {s : State} {row : Row} (hrow : lookupOpcode (s.mem.read s.pc) = some row) :
    fetchInstr s = .legal (fetchedInstr row s) (afterFetch (fetchedInstr row s) row.cycles s) := by
  have hlen : (fetchedInstr row s).length = row.form.length := length_instrAt hrow (operandWord s)
  rw [afterFetch, hlen]
  rcases hf : row.form with i | make | make
  · rw [fetchInstr_f1 s row i hrow hf, Form.length, fetchReads_one, fetchedInstr, hf]
    rfl
  · rw [fetchInstr_f2 s row make hrow hf, Form.length, fetchReads_two, fetchedInstr, hf, Form.instrAt, operandWord,
      loByte_wordOf]
    rfl
  · rw [fetchInstr_f3 s row make hrow hf, Form.length, fetchReads_three, fetchedInstr, hf]
    rfl

/-- The step on an opcode with a row. -/
theorem step_of_row {s : State} {row : Row} (hrow : lookupOpcode (s.mem.read s.pc) = some row) :
    step s = exec (fetchedInstr row s) (afterFetch (fetchedInstr row s) row.cycles s) :=
  step_legal s _ _ (fetchInstr_legal hrow)

/-- The fetched instruction is the one the bytes at PC decode to. -/
theorem decode_bytesAtPc {s : State} {row : Row} (hrow : lookupOpcode (s.mem.read s.pc) = some row) :
    ∃ rest, decode (bytesAtPc s) = .instr (fetchedInstr row s) rest := by
  simp only [bytesAtPc, decode, hrow, fetchedInstr, operandWord]
  rcases row.form with i | make | make <;> simp [completeForm, Form.instrAt]

/-- Settles O7: the bytes at PC decode to what `step_of_row` runs. -/
theorem stepRunsTheDecodedInstruction : Obligations.StepRunsTheDecodedInstruction := by
  intro s i rest row hdec hrow
  obtain ⟨rest', hdec'⟩ := decode_bytesAtPc hrow
  obtain rfl : i = fetchedInstr row s := (Decoded.instr.inj (hdec.symm.trans hdec')).1
  exact step_of_row hrow

theorem decode_of_decodeTableWord {nbits w : Nat} {i : Instr} (h : decodeTableWord nbits w = some i) :
    ∃ rest, decode (tableWordBytes nbits w) = .instr i rest := by
  unfold decodeTableWord at h
  split at h
  · next j rest hdec =>
    cases h
    exact ⟨rest, hdec⟩
  · cases h

/-- A word placed at PC is what the next fetch finds there. -/
theorem bytesAtPc_withFetchWord {s : State} (hinv : Inv s) (nbits w : Nat) :
    bytesAtPc (s.withFetchWord nbits w) = tableWordBytes nbits w := by
  obtain ⟨h0, h1, h2⟩ := Memory.read_writeBytes_three s.mem s.pc (BitVec.ofNat 8 (w % 2 ^ nbits))
    (BitVec.ofNat 8 (w % 2 ^ nbits / 256)) (BitVec.ofNat 8 (w % 2 ^ nbits / 65536)) hinv
  simp only [bytesAtPc, State.withFetchWord, State.setMem_mem, State.setMem_pc, tableWordBytes, h0, h1, h2]

/-- Settles O52: the bytes at PC are the word's, so its instruction's opcode stands there, and O7 says what the step is. -/
theorem storedWordIsTheNextInstruction : Obligations.StoredWordIsTheNextInstruction := by
  intro s nbits w i hinv hw
  obtain ⟨rest, hdec⟩ := decode_of_decodeTableWord hw
  rw [← bytesAtPc_withFetchWord hinv] at hdec
  have hop : (s.withFetchWord nbits w).mem.read (s.withFetchWord nbits w).pc = i.opcode :=
    (List.cons.inj (decodedBytesAreTheEncoding _ _ _ hdec)).1
  obtain ⟨row, hrow, -⟩ := exists_row i
  exact ⟨row, hrow, stepRunsTheDecodedInstruction _ i rest row hdec (hop ▸ hrow)⟩

end Sys2Proof.Machine

/-! What executing an instruction comes to, said once in the shapes of the access tables (95_test_vectors.md section 2):
`Meaning`. What holds of every instruction (its accesses, what memory it depends on, what flags it depends on) is then a case
per shape. -/

namespace Sys2Proof.Machine

open Sys2Proof.Claims

/-! ### Turning over a flag that nothing tests -/

/-- The bits of SR that no instruction tests (10_state.md R21, R26 to R28). -/
def untestedFlags : List Flag := [.i, .d, .b, .u]

theorem ne_of_untested {f g : Flag} (hf : f ∈ untestedFlags) (hg : g ∉ untestedFlags) : g ≠ f := fun e => hg (e ▸ hf)

theorem getFlag_flip_of_ne {f g : Flag} (h : g ≠ f) (sr : Byte) : getFlag g (sr ^^^ flagMask f) = getFlag g sr := by
  simp [getFlag_flip, h]

section
variable {f : Flag} (hf : f ∈ untestedFlags)
include hf

theorem getCarry_flip (sr : Byte) : getFlag .c (sr ^^^ flagMask f) = getFlag .c sr :=
  getFlag_flip_of_ne (ne_of_untested hf (by decide)) sr

theorem putFlag_flip_untested {g : Flag} (hg : g ∉ untestedFlags) (b : Bool) (sr : Byte) :
    putFlag g b (sr ^^^ flagMask f) = putFlag g b sr ^^^ flagMask f :=
  putFlag_flip f g b sr (ne_of_untested hf hg)

theorem setNZ_flip (v sr : Byte) : setNZ v (sr ^^^ flagMask f) = setNZ v sr ^^^ flagMask f := by
  rw [setNZ, putFlag_flip_untested hf (by decide), putFlag_flip_untested hf (by decide), setNZ]

theorem addFlags_flip (r : AddResult) (sr : Byte) : addFlags r (sr ^^^ flagMask f) = addFlags r sr ^^^ flagMask f := by
  rw [addFlags, putFlag_flip_untested hf (by decide), putFlag_flip_untested hf (by decide), setNZ_flip hf, addFlags]

theorem compareFlags_flip (r m sr : Byte) : compareFlags r m (sr ^^^ flagMask f) = compareFlags r m sr ^^^ flagMask f := by
  rw [compareFlags, putFlag_flip_untested hf (by decide), setNZ_flip hf, compareFlags]

theorem shiftFlags_flip (r : ShiftResult) (sr : Byte) : shiftFlags r (sr ^^^ flagMask f) = shiftFlags r sr ^^^ flagMask f := by
  rw [shiftFlags, putFlag_flip_untested hf (by decide), setNZ_flip hf, shiftFlags]

theorem bitTestFlags_flip (a m sr : Byte) : bitTestFlags a m (sr ^^^ flagMask f) = bitTestFlags a m sr ^^^ flagMask f := by
  rw [bitTestFlags, putFlag_flip_untested hf (by decide), putFlag_flip_untested hf (by decide),
    putFlag_flip_untested hf (by decide), bitTestFlags]

end

/-- A flag written over itself: the old value is lost. -/
theorem putFlag_flip_same (f : Flag) (b : Bool) (sr : Byte) : putFlag f b (sr ^^^ flagMask f) = putFlag f b sr := by
  refine sr_eq_of_flags _ _ fun g => ?_
  rw [getFlag_putFlag, getFlag_putFlag]
  split
  · rfl
  · next h => exact getFlag_flip_of_ne h sr

/-! ### Meanings over registers alone -/

/-- A meaning that neither touches memory nor depends on it, and on which an untested flag turned over before has no effect but
to stay turned over, or to be lost. -/
structure RegistersOnly (g : State → State) : Prop where
  mem : ∀ s, (g s).mem = s.mem
  accesses : ∀ s, (g s).accesses = s.accesses
  setMem : ∀ s m, g (s.setMem m) = (g s).setMem m
  flip : ∀ f ∈ untestedFlags, ∀ s, g (flipFlag f s) = flipFlag f (g s) ∨ g (flipFlag f s) = g s

/-- A meaning over registers leaves the SR it finds as `φ` of it, and writes nothing else that depends on it. -/
theorem RegistersOnly.of_sr {g : State → State} (φ : State → Byte → Byte) (hmem : ∀ s, (g s).mem = s.mem)
    (hacc : ∀ s, (g s).accesses = s.accesses) (hset : ∀ s m, g (s.setMem m) = (g s).setMem m)
    (hsr : ∀ s r, g (s.setSr r) = (g s).setSr (φ s r))
    (hφ : ∀ f ∈ untestedFlags, ∀ s r, φ s (r ^^^ flagMask f) = φ s r ^^^ flagMask f ∨ φ s (r ^^^ flagMask f) = φ s r) :
    RegistersOnly g where
  mem := hmem
  accesses := hacc
  setMem := hset
  flip f hf s := by
    have hold : (g s).setSr (φ s s.sr) = g s := (hsr s s.sr).symm
    have hnew : g (flipFlag f s) = (g s).setSr (φ s (s.sr ^^^ flagMask f)) := hsr s _
    rw [hnew]
    rcases hφ f hf s s.sr with h | h
    · left
      rw [h, flipFlag, ← congrArg State.sr hold, State.setSr_sr]
    · right
      rw [h, hold]

theorem registersOnly_id : RegistersOnly fun s => s :=
  ⟨fun _ => rfl, fun _ => rfl, fun _ _ => rfl, fun _ _ _ => .inl rfl⟩

/-- A value that depends on neither memory nor SR is put in A, X or Y, with `SetNZ` of it. -/
theorem registersOnly_move (v : State → Byte) {put : State → Byte → State} (hput : put ∈ [State.setA, State.setX, State.setY])
    (hmem : ∀ s m, v (s.setMem m) = v s) (hsr : ∀ s r, v (s.setSr r) = v s) :
    RegistersOnly fun s => updNZ (v s) (put s (v s)) := by
  have hflip : ∀ f ∈ untestedFlags, ∀ s r, setNZ (v s) (r ^^^ flagMask f) = setNZ (v s) r ^^^ flagMask f ∨
      setNZ (v s) (r ^^^ flagMask f) = setNZ (v s) r := fun _ hf s r => .inl (setNZ_flip hf (v s) r)
  fin_cases hput <;>
    exact .of_sr (fun s => setNZ (v s)) (fun _ => rfl) (fun _ => rfl) (fun s m => by simp only [hmem]; rfl)
      (fun s r => by simp only [hsr]; rfl) hflip

theorem registersOnly_updFlag (g : Flag) (b : Bool) : RegistersOnly (updFlag g b) :=
  .of_sr (fun _ => putFlag g b) (fun _ => rfl) (fun _ => rfl) (fun _ _ => rfl) (fun _ _ => rfl) fun f _ _ r =>
    if h : g = f then .inr (h ▸ putFlag_flip_same f b r) else .inl (putFlag_flip f g b r h)

/-- ADC and SBC after the operand `v` is read, with the sum each takes of A, `v` and Carry. -/
def addWith (sum : Byte → Byte → Bool → AddResult) (v : Byte) (s : State) : State :=
  (s.setSr (addFlags (sum s.a v (getFlag .c s.sr)) s.sr)).setA (sum s.a v (getFlag .c s.sr)).value

theorem addA_eq_addWith (src : Source) (s : State) :
    addA src s = addWith addWithCarry (readSource src s).1 (readSource src s).2 := rfl

theorem subA_eq_addWith (src : Source) (s : State) :
    subA src s = addWith subWithBorrow (readSource src s).1 (readSource src s).2 := rfl

theorem addWith_flip {f : Flag} (hf : f ∈ untestedFlags) (sum : Byte → Byte → Bool → AddResult) (v : Byte) (s : State) :
    addWith sum v (flipFlag f s) = flipFlag f (addWith sum v s) := by
  rw [addWith, addWith, flipFlag, State.setSr_a, State.setSr_sr, getCarry_flip hf, addFlags_flip hf]
  rfl

theorem registersOnly_addWith (sum : Byte → Byte → Bool → AddResult) (v : Byte) : RegistersOnly (addWith sum v) where
  mem _ := rfl
  accesses _ := rfl
  setMem _ _ := rfl
  flip _ hf s := .inl (addWith_flip hf sum v s)

/-- A shift or rotate of A. -/
theorem registersOnly_shiftPlace_acc (f : Byte → Bool → ShiftResult) : RegistersOnly (shiftPlace f .acc) where
  mem _ := rfl
  accesses _ := rfl
  setMem _ _ := rfl
  flip g hg s := .inl (by simp [flipFlag, shiftPlace_acc_eq, getCarry_flip hg, shiftFlags_flip hg, State.setSr])

theorem registersOnly_branchIf {cond : Byte → Bool} (hcond : ∀ f ∈ untestedFlags, ∀ sr, cond (sr ^^^ flagMask f) = cond sr)
    (d : Byte) : RegistersOnly fun s => branchIf (cond s.sr) d s where
  mem s := by rw [branchIf_eq]
  accesses s := by rw [branchIf_eq]
  setMem s m := by simp only [branchIf_eq, State.setMem]
  flip f hf s := .inl (by simp [flipFlag, branchIf_eq, hcond f hf, State.setSr])

/-! ### The shapes -/

/-- The registers that are stored and compared. -/
def generalRegisters : List (State → Byte) := [State.a, State.x, State.y]

/-- A meaning that reads its operand's value and then works on registers with it. -/
def ReadsThenRegisters (f : Source → State → State) : Prop :=
  ∃ g : Byte → State → State, (∀ src s, f src s = g (readSource src s).1 (readSource src s).2) ∧ ∀ v, RegistersOnly (g v)

/-- What executing an instruction comes to: its effect `E`, by the kinds of access it makes after its own bytes are fetched. -/
inductive Meaning (i : Instr) (E : State → State) : Prop where
  /-- no access -/
  | registers (hports : ∀ s, dataPorts i s = []) (hE : RegistersOnly E)
  /-- one operand value read, then registers -/
  | reads {src : Source} {f : Source → State → State} (hi : i.mnemonic ∈ operandReaders) (hsrc : i.operand.source? = some src)
      (hf : ReadsThenRegisters f) (hE : ∀ s, E s = f src s)
  /-- a register stored -/
  | stores {m : MemOperand} {r : State → Byte} (hi : i.mnemonic ∈ Claims.stores) (hm : i.operand = .memory m)
      (hr : r ∈ generalRegisters) (hE : ∀ s, E s = storeTo m (r s) s)
  /-- INC, DEC: one byte read and written -/
  | modifies {m : MemOperand} {f : Byte → Byte} (hi : i.mnemonic ∈ modifiers) (hm : i.operand = .memory m)
      (hE : ∀ s, E s = modifyMem f m s)
  /-- a shift or rotate of a byte of memory -/
  | shifts {m : MemOperand} {f : Byte → Bool → ShiftResult} (hi : i.mnemonic ∈ modifiers) (hm : i.operand = .memory m)
      (hE : ∀ s, E s = shiftPlace f (.mem m) s)
  | jumpIndirect {p : Addr} (hp : i.operand = .indirect p) (hE : ∀ s, E s = Machine.jumpIndirect p s)
  | call {w : Addr} (hi : i.mnemonic = .jsr) (hm : i.operand = .memory (.abs w)) (hE : ∀ s, E s = callSub w s)
  | returns (hi : i.mnemonic = .rts) (ho : i.operand = .implied) (hE : ∀ s, E s = returnSub s)
  | pushA (hi : i.mnemonic = .pha) (ho : i.operand = .implied) (hE : ∀ s, E s = push8 s.a s)
  | pushSr (hi : i.mnemonic = .php) (ho : i.operand = .implied) (hE : ∀ s, E s = push8 s.sr s)
  | pullA (hi : i.mnemonic = .pla) (ho : i.operand = .implied) (hE : ∀ s, E s = Machine.pullA s)
  | pullSr (hi : i.mnemonic = .plp) (ho : i.operand = .implied) (hE : ∀ s, E s = Machine.pullSr s)
  | trap (hi : i.mnemonic = .brk) (ho : i.operand = .implied) (hE : ∀ s, E s = takeBreak s)
  | trapReturn (hi : i.mnemonic = .rti) (ho : i.operand = .implied) (hE : ∀ s, E s = returnFromBreak s)

/-! ### The meanings that read an operand value -/

theorem readsThenRegisters_loadA : ReadsThenRegisters loadA :=
  ⟨_, fun _ _ => rfl, fun v => registersOnly_move (put := State.setA) (fun _ => v) (by simp) (fun _ _ => rfl) fun _ _ => rfl⟩

theorem readsThenRegisters_loadX : ReadsThenRegisters loadX :=
  ⟨_, fun _ _ => rfl, fun v => registersOnly_move (put := State.setX) (fun _ => v) (by simp) (fun _ _ => rfl) fun _ _ => rfl⟩

theorem readsThenRegisters_loadY : ReadsThenRegisters loadY :=
  ⟨_, fun _ _ => rfl, fun v => registersOnly_move (put := State.setY) (fun _ => v) (by simp) (fun _ _ => rfl) fun _ _ => rfl⟩

theorem readsThenRegisters_logicA (f : Byte → Byte → Byte) : ReadsThenRegisters (logicA f) :=
  ⟨_, fun _ _ => rfl, fun v =>
    registersOnly_move (put := State.setA) (fun t => f t.a v) (by simp) (fun _ _ => rfl) fun _ _ => rfl⟩

theorem readsThenRegisters_bitTest : ReadsThenRegisters bitTest :=
  ⟨fun v t => t.setSr (bitTestFlags t.a v t.sr), fun _ _ => rfl, fun v =>
    .of_sr (fun t => bitTestFlags t.a v) (fun _ => rfl) (fun _ => rfl) (fun _ _ => rfl) (fun _ _ => rfl)
      fun _ hf t r => .inl (bitTestFlags_flip hf t.a v r)⟩

theorem readsThenRegisters_addA : ReadsThenRegisters addA :=
  ⟨addWith addWithCarry, addA_eq_addWith, registersOnly_addWith addWithCarry⟩

theorem readsThenRegisters_subA : ReadsThenRegisters subA :=
  ⟨addWith subWithBorrow, subA_eq_addWith, registersOnly_addWith subWithBorrow⟩

/-- An operand read leaves the registers that are compared. -/
theorem generalRegister_readSource {r : State → Byte} (hr : r ∈ generalRegisters) (src : Source) (s : State) :
    r (readSource src s).2 = r s := by
  rw [readSource_snd]
  fin_cases hr <;> rfl

theorem readsThenRegisters_compareWith {r : State → Byte} (hr : r ∈ generalRegisters) :
    ReadsThenRegisters fun src s => compareWith (r s) src s := by
  refine ⟨fun v t => t.setSr (compareFlags (r t) v t.sr), fun src s => ?_, fun v => ?_⟩
  · simp only [compareWith, generalRegister_readSource hr]
  · fin_cases hr <;> exact .of_sr (fun t => compareFlags _ v) (fun _ => rfl) (fun _ => rfl) (fun _ _ => rfl) (fun _ _ => rfl)
      fun _ hf t r => .inl (compareFlags_flip hf _ v r)

/-- What consumes an operand value reads it and then works on registers. -/
theorem meaning_of_operandReader {i : Instr} (hi : i.mnemonic ∈ operandReaders) : Meaning i (effect i.mnemonic i.operand) := by
  obtain ⟨src, hsrc⟩ := source?_of_operandReader hi
  have hat {f : Source → State → State} (hf : ReadsThenRegisters f) : Meaning i fun s => atSource i.operand f s :=
    .reads hi hsrc hf fun s => atSource_some _ f s src hsrc
  have hcmp {r : State → Byte} (hr : r ∈ generalRegisters) : Meaning i fun s => atSource i.operand (compareWith (r s)) s :=
    .reads hi hsrc (readsThenRegisters_compareWith hr) fun s => atSource_some _ _ s src hsrc
  generalize i.mnemonic = n at hi ⊢
  cases n with
  | lda => exact hat readsThenRegisters_loadA
  | ldx => exact hat readsThenRegisters_loadX
  | ldy => exact hat readsThenRegisters_loadY
  | and | ora | eor => exact hat (readsThenRegisters_logicA _)
  | bit => exact hat readsThenRegisters_bitTest
  | adc => exact hat readsThenRegisters_addA
  | sbc => exact hat readsThenRegisters_subA
  | cmp => exact hcmp (r := State.a) (by simp [generalRegisters])
  | cpx => exact hcmp (r := State.x) (by simp [generalRegisters])
  | cpy => exact hcmp (r := State.y) (by simp [generalRegisters])
  | _ => exact absurd hi (by decide)

/-! ### The meanings that work on a byte of memory or on A -/

theorem eq_memory_of_memory? {o : Operand} {m : MemOperand} (h : o.memory? = some m) : o = .memory m := by
  cases o <;> cases h
  rfl

theorem memory?_of_store {i : Instr} (h : i.mnemonic ∈ stores) : ∃ m, i.operand.memory? = some m := by
  have hmodes : ∀ n ∈ stores, ∀ md ∈ legalModes n, md ∉ [Mode.imp, .acc, .imm, .ind, .rel] := by decide
  exact memory?_of_mode (hmodes _ h _ (mode_mem_legalModes i))

theorem meaning_of_store {i : Instr} (hi : i.mnemonic ∈ stores) : Meaning i (effect i.mnemonic i.operand) := by
  obtain ⟨m, hm⟩ := memory?_of_store hi
  have hat {r : State → Byte} (hr : r ∈ generalRegisters) :
      Meaning i fun s => atMemory i.operand (fun m s => storeTo m (r s) s) s :=
    .stores hi (eq_memory_of_memory? hm) hr fun s => atMemory_some _ _ s m hm
  generalize i.mnemonic = n at hi ⊢
  cases n with
  | sta => exact hat (r := State.a) (by simp [generalRegisters])
  | stx => exact hat (r := State.x) (by simp [generalRegisters])
  | sty => exact hat (r := State.y) (by simp [generalRegisters])
  | _ => exact absurd hi (by decide)

theorem place?_eq_some {o : Operand} {p : Place} (h : o.place? = some p) :
    (o = .accumulator ∧ p = .acc) ∨ ∃ m, o = .memory m ∧ p = .mem m := by
  cases o with
  | accumulator =>
    cases h
    exact .inl ⟨rfl, rfl⟩
  | memory m =>
    cases h
    exact .inr ⟨m, rfl, rfl⟩
  | implied | immediate | indirect | relative => cases h

theorem meaning_of_shift {i : Instr} (hi : i.mnemonic ∈ modifiers) (f : Byte → Bool → ShiftResult) :
    Meaning i fun s => atPlace i.operand (shiftPlace f) s := by
  obtain ⟨p, hp⟩ := place?_of_modifier hi
  have hat := fun s => atPlace_some i.operand (shiftPlace f) s p hp
  rcases place?_eq_some hp with ⟨ho, rfl⟩ | ⟨m, hm, rfl⟩
  · exact .registers (fun s => by simp only [dataPorts, ho]) (funext hat ▸ registersOnly_shiftPlace_acc f)
  · exact .shifts hi hm hat

theorem meaning_of_modifier {i : Instr} (hi : i.mnemonic ∈ modifiers) : Meaning i (effect i.mnemonic i.operand) := by
  have hshift := meaning_of_shift hi
  have hmod (h : i.mnemonic ∈ [.inc, .dec]) (f : Byte → Byte) : Meaning i fun s => atMemory i.operand (modifyMem f) s := by
    obtain ⟨m, hm⟩ := memory?_of_incDec h
    exact .modifies hi (eq_memory_of_memory? hm) fun s => atMemory_some _ _ s m hm
  generalize i.mnemonic = n at hi hmod ⊢
  cases n with
  | inc | dec => exact hmod (by decide) _
  | asl | lsr | rol | ror => exact hshift _
  | _ => exact absurd hi (by decide)

/-! ### The meanings of an implied operand, of a jump and of a branch -/

theorem mode_of_legalModes {i : Instr} {md : Mode} (h : legalModes i.mnemonic = [md]) : i.operand.mode = md := by
  simpa [h] using mode_mem_legalModes i

theorem operand_of_mode_imp {o : Operand} (h : o.mode = .imp) : o = .implied := by
  cases o with
  | implied => rfl
  | memory m => cases m <;> cases h
  | accumulator | immediate | indirect | relative => cases h

theorem operand_of_mode_rel {o : Operand} (h : o.mode = .rel) : ∃ d, o = .relative d := by
  cases o with
  | relative d => exact ⟨d, rfl⟩
  | memory m => cases m <;> cases h
  | implied | accumulator | immediate | indirect => cases h

theorem operand_of_mode_ind {o : Operand} (h : o.mode = .ind) : ∃ p, o = .indirect p := by
  cases o with
  | indirect p => exact ⟨p, rfl⟩
  | memory m => cases m <;> cases h
  | implied | accumulator | immediate | relative => cases h

theorem operand_of_mode_abs {o : Operand} (h : o.mode = .abs) : ∃ w, o = .memory (.abs w) := by
  cases o with
  | memory m =>
    cases m with
    | abs w => exact ⟨w, rfl⟩
    | zp | zpx | zpy | absx | absy | indx | indy => cases h
  | implied | accumulator | immediate | indirect | relative => cases h

/-- The mnemonics whose accesses are on the stack. -/
def stackUsers : List Mnemonic := [.pha, .php, .pla, .plp, .rts, .rti, .brk]

theorem dataPorts_implied {i : Instr} (ho : i.operand = .implied) (hi : i.mnemonic ∉ stackUsers) (s : State) :
    dataPorts i s = [] := by
  simp only [stackUsers, List.mem_cons, List.not_mem_nil, not_or, or_false] at hi
  simp [dataPorts, ho, hi]

theorem operand_of_imp {i : Instr} {n : Mnemonic} (hi : i.mnemonic = n) (hn : legalModes n = [.imp]) : i.operand = .implied :=
  operand_of_mode_imp (mode_of_legalModes (hi ▸ hn))

/-- An implied operand off the stack: registers alone. -/
theorem meaning_of_implied {i : Instr} {n : Mnemonic} {E : State → State} (hi : i.mnemonic = n)
    (hn : legalModes n = [.imp] ∧ n ∉ stackUsers) (hE : RegistersOnly E) : Meaning i E :=
  .registers (dataPorts_implied (operand_of_imp hi hn.1) (hi ▸ hn.2)) hE

/-- A branch on one of the flags that are tested. -/
theorem meaning_of_branch {i : Instr} {n : Mnemonic} {g : Flag} (hi : i.mnemonic = n) (hn : legalModes n = [.rel])
    (hg : g ∉ untestedFlags) (test : Bool → Bool) : Meaning i fun s => atRelative i.operand (test (getFlag g s.sr)) s := by
  obtain ⟨d, hd⟩ := operand_of_mode_rel (mode_of_legalModes (hi ▸ hn))
  have hE : RegistersOnly fun s => branchIf (test (getFlag g s.sr)) d s :=
    registersOnly_branchIf (cond := fun sr => test (getFlag g sr))
      (fun f hf sr => congrArg test (getFlag_flip_of_ne (ne_of_untested hf hg) sr)) d
  exact .registers (fun s => by simp only [dataPorts, hd]) (hd ▸ hE)

theorem meaning_of_jump {i : Instr} (hi : i.mnemonic = .jmp) : Meaning i (atJump i.operand) := by
  have hmode : i.operand.mode = .abs ∨ i.operand.mode = .ind := by simpa [hi, legalModes] using mode_mem_legalModes i
  rcases hmode with h | h
  · obtain ⟨w, hw⟩ := operand_of_mode_abs h
    have hE : atJump i.operand = fun s => s.setPc w := by rw [hw]; rfl
    exact .registers (fun s => by simp [dataPorts, hw, hi])
      (hE ▸ ⟨fun _ => rfl, fun _ => rfl, fun _ _ => rfl, fun _ _ _ => .inl rfl⟩)
  · obtain ⟨p, hp⟩ := operand_of_mode_ind h
    exact .jumpIndirect hp fun s => by rw [hp]; rfl

theorem meaning_of_call {i : Instr} (hi : i.mnemonic = .jsr) : Meaning i (atCall i.operand) := by
  obtain ⟨w, hw⟩ := operand_of_mode_abs (mode_of_legalModes (i := i) (by rw [hi]; rfl))
  exact .call hi hw fun s => by rw [hw]; rfl

/-- The transfers and the increments of a register. -/
def registerMoves : List Mnemonic := [.tax, .txa, .tay, .tya, .tsx, .txs, .inx, .dex, .iny, .dey]

theorem registersOnly_registerMove {n : Mnemonic} (h : n ∈ registerMoves) (o : Operand) : RegistersOnly (effect n o) := by
  have hA (v : State → Byte) := registersOnly_move v (put := State.setA) (by simp)
  have hX (v : State → Byte) := registersOnly_move v (put := State.setX) (by simp)
  have hY (v : State → Byte) := registersOnly_move v (put := State.setY) (by simp)
  cases n with
  | tax => exact hX State.a (fun _ _ => rfl) fun _ _ => rfl
  | txa => exact hA State.x (fun _ _ => rfl) fun _ _ => rfl
  | tay => exact hY State.a (fun _ _ => rfl) fun _ _ => rfl
  | tya => exact hA State.y (fun _ _ => rfl) fun _ _ => rfl
  | tsx => exact hX State.sp (fun _ _ => rfl) fun _ _ => rfl
  | txs => exact ⟨fun _ => rfl, fun _ => rfl, fun _ _ => rfl, fun _ _ _ => .inl rfl⟩
  | inx => exact hX (fun s => s.x + 1#8) (fun _ _ => rfl) fun _ _ => rfl
  | dex => exact hX (fun s => s.x - 1#8) (fun _ _ => rfl) fun _ _ => rfl
  | iny => exact hY (fun s => s.y + 1#8) (fun _ _ => rfl) fun _ _ => rfl
  | dey => exact hY (fun s => s.y - 1#8) (fun _ _ => rfl) fun _ _ => rfl
  | _ => exact absurd h (by decide)

/-- Every instruction has one of the meanings. -/
theorem meaning_effect (i : Instr) : Meaning i (effect i.mnemonic i.operand) := by
  have hread := @meaning_of_operandReader i
  have hstore := @meaning_of_store i
  have hmod := @meaning_of_modifier i
  cases hi : i.mnemonic with
  | lda | ldx | ldy | and | ora | eor | bit | adc | sbc | cmp | cpx | cpy => exact hi ▸ hread (hi ▸ by decide)
  | sta | stx | sty => exact hi ▸ hstore (hi ▸ by decide)
  | inc | dec | asl | lsr | rol | ror => exact hi ▸ hmod (hi ▸ by decide)
  | tax | txa | tay | tya | tsx | txs | inx | dex | iny | dey =>
    exact meaning_of_implied hi (by decide) (registersOnly_registerMove (by decide) _)
  | nop => exact meaning_of_implied hi (by decide) registersOnly_id
  | pha => exact .pushA hi (operand_of_imp hi rfl) fun _ => rfl
  | php => exact .pushSr hi (operand_of_imp hi rfl) fun _ => rfl
  | pla => exact .pullA hi (operand_of_imp hi rfl) fun _ => rfl
  | plp => exact .pullSr hi (operand_of_imp hi rfl) fun _ => rfl
  | rts => exact .returns hi (operand_of_imp hi rfl) fun _ => rfl
  | brk => exact .trap hi (operand_of_imp hi rfl) fun _ => rfl
  | rti => exact .trapReturn hi (operand_of_imp hi rfl) fun _ => rfl
  | jmp => exact meaning_of_jump hi
  | jsr => exact meaning_of_call hi
  | bpl | bvc | bcc | bne => exact meaning_of_branch hi rfl (by decide) not
  | bmi | bvs | bcs | beq => exact meaning_of_branch hi rfl (by decide) id
  | clc | sec | cli | sei | clv | cld | sed => exact meaning_of_implied hi (by decide) (registersOnly_updFlag _ _)

end Sys2Proof.Machine

/-! The accesses of an instruction and of a step (95_test_vectors.md section 2): they are the listed ones, they account for
memory, and what memory they do not read has no effect. O9 to O11 are this; the canonical form of memory (O18) follows, since
only writes change memory. -/

namespace Sys2Proof.Machine

open Sys2Proof.Claims

/-! ### Replaying accesses -/

theorem replay_append (l l' : List Access) (m : Memory) : replay (l ++ l') m = (replay l m).bind (replay l') := by
  induction l generalizing m with
  | nil => rfl
  | cons e l ih =>
    cases e with
    | read a v =>
      simp only [List.cons_append, replay]
      split
      · exact ih m
      · rfl
    | write a v => exact ih _

/-- Reads of what memory holds leave it. -/
theorem replay_reads {l : List Access} {m : Memory} (h : ∀ e ∈ l, ∃ a, e = .read a (m.read a)) : replay l m = some m := by
  induction l with
  | nil => rfl
  | cons e l ih =>
    obtain ⟨a, rfl⟩ := h e (by simp)
    simp only [replay, if_true]
    exact ih fun e he => h e (by simp [he])

/-- Only writes change memory, and a write keeps the canonical form. -/
theorem wf_of_replay {l : List Access} {m m' : Memory} (h : replay l m = some m') (hm : m.wf = true) : m'.wf = true := by
  induction l generalizing m with
  | nil =>
    cases h
    exact hm
  | cons e l ih =>
    cases e with
    | read a v =>
      simp only [replay] at h
      split at h
      · exact ih h hm
      · cases h
    | write a v => exact ih h (Memory.write_wf m a v hm)

/-- `t` is reached from `s` with the accesses `l` added, which account for its memory. -/
structure Performs (l : List Access) (s t : State) : Prop where
  accesses : t.accesses = s.accesses ++ l
  replays : replay l s.mem = some t.mem

/-- Reads alone. -/
theorem Performs.of_reads {l : List Access} {s t : State} (ha : t.accesses = s.accesses ++ l) (hm : t.mem = s.mem)
    (hl : ∀ e ∈ l, ∃ a, e = .read a (s.mem.read a)) : Performs l s t :=
  ⟨ha, (replay_reads hl).trans (congrArg some hm.symm)⟩

/-- Reads followed by accesses of another kind. -/
theorem Performs.of_append {l l' : List Access} {s t : State} (ha : t.accesses = s.accesses ++ (l ++ l'))
    (hl : ∀ e ∈ l, ∃ a, e = .read a (s.mem.read a)) (hl' : replay l' s.mem = some t.mem) : Performs (l ++ l') s t :=
  ⟨ha, by rw [replay_append, replay_reads hl, Option.bind_some, hl']⟩

theorem pointerReads_reads (m : MemOperand) (s : State) : ∀ e ∈ pointerReads m s, ∃ a, e = .read a (s.mem.read a) := by
  cases m <;> simp [pointerReads, pointerAccesses]

theorem sourceReads_reads (src : Source) (s : State) : ∀ e ∈ sourceReads src s, ∃ a, e = .read a (s.mem.read a) := by
  cases src with
  | imm v => simp [sourceReads]
  | mem m =>
    intro e he
    rcases List.mem_append.1 he with he | he
    · exact pointerReads_reads m s e he
    · exact ⟨_, List.mem_singleton.1 he⟩

/-! ### The listed accesses by shape -/

theorem map_portOf_pointerReads (m : MemOperand) (s : State) : (pointerReads m s).map portOf = pointerPorts m s := by
  cases m <;> rfl

theorem dataPorts_of_operandReader {i : Instr} {src : Source} (hi : i.mnemonic ∈ operandReaders)
    (hsrc : i.operand.source? = some src) (s : State) : dataPorts i s = (sourceReads src s).map portOf := by
  have hne : ∀ n ∈ operandReaders, n ≠ .jmp ∧ n ≠ .jsr ∧ n ∉ stores ∧ n ∉ modifiers := by decide
  obtain ⟨hjmp, hjsr, hst, hmod⟩ := hne _ hi
  cases ho : i.operand with
  | immediate v =>
    rw [ho] at hsrc
    cases hsrc
    simp only [dataPorts, ho, sourceReads, List.map_nil]
  | memory m =>
    rw [ho] at hsrc
    cases hsrc
    simp [dataPorts, ho, hjmp, hjsr, hst, hmod, sourceReads, map_portOf_pointerReads, portOf]
  | implied | accumulator | indirect | relative =>
    rw [ho] at hsrc
    cases hsrc

theorem dataPorts_of_store {i : Instr} {m : MemOperand} (hi : i.mnemonic ∈ stores) (hm : i.operand = .memory m)
    (s : State) : dataPorts i s = pointerPorts m s ++ [.w (effAddr m s).1] := by
  have hne : ∀ n ∈ stores, n ≠ .jmp ∧ n ≠ .jsr := by decide
  simp [dataPorts, hm, hi, hne _ hi]

theorem dataPorts_of_modifier {i : Instr} {m : MemOperand} (hi : i.mnemonic ∈ modifiers) (hm : i.operand = .memory m)
    (s : State) : dataPorts i s = pointerPorts m s ++ [.r (effAddr m s).1, .w (effAddr m s).1] := by
  have hne : ∀ n ∈ modifiers, n ≠ .jmp ∧ n ≠ .jsr ∧ n ∉ stores := by decide
  simp [dataPorts, hm, hi, hne _ hi]

/-! ### What each shape adds to the accesses -/

theorem performs_storeTo (m : MemOperand) (v : Byte) (s : State) :
    Performs (pointerReads m s ++ [.write (effAddr m s).1 v]) s (storeTo m v s) := by
  rw [storeTo_eq]
  exact .of_append rfl (pointerReads_reads m s) rfl

theorem performs_modifyMem (f : Byte → Byte) (m : MemOperand) (s : State) :
    Performs (pointerReads m s ++ [.read (effAddr m s).1 (s.mem.read (effAddr m s).1),
      .write (effAddr m s).1 (f (s.mem.read (effAddr m s).1))]) s (modifyMem f m s) := by
  rw [modifyMem_eq]
  exact .of_append rfl (pointerReads_reads m s) (by simp [replay])

theorem performs_shiftPlace_mem (f : Byte → Bool → ShiftResult) (m : MemOperand) (s : State) :
    Performs (pointerReads m s ++ [.read (effAddr m s).1 (s.mem.read (effAddr m s).1),
      .write (effAddr m s).1 (f (s.mem.read (effAddr m s).1) (getFlag .c s.sr)).value]) s (shiftPlace f (.mem m) s) := by
  rw [shiftPlace_mem_eq]
  exact .of_append rfl (pointerReads_reads m s) (by simp [replay])

theorem performs_push8 (v : Byte) (s : State) : Performs [.write (stackAddr s.sp) v] s (push8 v s) := ⟨rfl, rfl⟩

theorem performs_callSub (w : Addr) (s : State) :
    Performs [.write (stackAddr s.sp) (hiByte (s.pc - 1#16)), .write (stackAddr (s.sp - 1#8)) (loByte (s.pc - 1#16))] s
      (callSub w s) := by
  rw [callSub_eq, pushAddr_eq]
  exact ⟨rfl, rfl⟩

/-- The vector is read after the pushes, which go to another page. -/
theorem performs_takeBreak (s : State) :
    Performs [.write (stackAddr s.sp) (hiByte s.pc), .write (stackAddr (s.sp - 1#8)) (loByte s.pc),
      .write (stackAddr (s.sp - 1#8 - 1#8)) (s.sr ||| flagMask .b), .read brkVectorLo (s.mem.read brkVectorLo),
      .read brkVectorHi (s.mem.read brkVectorHi)] s (takeBreak s) := by
  have hlo : (breakFrame s).read brkVectorLo = s.mem.read brkVectorLo :=
    breakFrame_read s _ (stackAddr_ne_vectorLo _) (stackAddr_ne_vectorLo _) (stackAddr_ne_vectorLo _)
  have hhi : (breakFrame s).read brkVectorHi = s.mem.read brkVectorHi :=
    breakFrame_read s _ (stackAddr_ne_vectorHi _) (stackAddr_ne_vectorHi _) (stackAddr_ne_vectorHi _)
  have hreads : replay [.read brkVectorLo (s.mem.read brkVectorLo), .read brkVectorHi (s.mem.read brkVectorHi)] (breakFrame s) =
      some (breakFrame s) := replay_reads (by simp [hlo, hhi])
  rw [takeBreak_eq]
  exact ⟨rfl, hreads⟩

/-- What the effect of every shape adds to the accesses: the listed ones, and they account for memory. -/
theorem Meaning.performs {i : Instr} {E : State → State} (h : Meaning i E) (s : State) :
    ∃ l, Performs l s (E s) ∧ l.map portOf = dataPorts i s := by
  cases h with
  | registers hports hE =>
    exact ⟨[], .of_reads (by simp [hE.accesses]) (hE.mem s) (by simp), (hports s).symm⟩
  | @reads src f hi hsrc hf hE =>
    obtain ⟨g, hfg, hg⟩ := hf
    refine ⟨sourceReads src s, ?_, (dataPorts_of_operandReader hi hsrc s).symm⟩
    rw [hE, hfg]
    exact .of_reads (by rw [(hg _).accesses, readSource_snd]) (by rw [(hg _).mem, readSource_snd]) (sourceReads_reads src s)
  | @stores m r hi hm hr hE =>
    refine ⟨_, hE s ▸ performs_storeTo m (r s) s, ?_⟩
    simp [dataPorts_of_store hi hm, map_portOf_pointerReads, portOf]
  | @modifies m f hi hm hE =>
    refine ⟨_, hE s ▸ performs_modifyMem f m s, ?_⟩
    simp [dataPorts_of_modifier hi hm, map_portOf_pointerReads, portOf]
  | @shifts m f hi hm hE =>
    refine ⟨_, hE s ▸ performs_shiftPlace_mem f m s, ?_⟩
    simp [dataPorts_of_modifier hi hm, map_portOf_pointerReads, portOf]
  | @jumpIndirect p hp hE =>
    refine ⟨_, .of_reads (by rw [hE, jumpIndirect_eq]) (by rw [hE, jumpIndirect_eq]) (by simp), ?_⟩
    simp [dataPorts, hp, portOf]
  | @call w hi hm hE =>
    refine ⟨_, hE s ▸ performs_callSub w s, ?_⟩
    simp [dataPorts, hi, hm, portOf]
  | returns hi ho hE =>
    refine ⟨_, .of_reads (by rw [hE, returnSub_eq, popAddr_snd]) (by rw [hE, returnSub_eq, popAddr_snd]) (by simp), ?_⟩
    simp [dataPorts, hi, ho, portOf, BitVec.add_assoc]
  | pushA hi ho hE =>
    refine ⟨_, hE s ▸ performs_push8 s.a s, ?_⟩
    simp [dataPorts, hi, ho, portOf]
  | pushSr hi ho hE =>
    refine ⟨_, hE s ▸ performs_push8 s.sr s, ?_⟩
    simp [dataPorts, hi, ho, portOf]
  | pullA hi ho hE =>
    refine ⟨_, .of_reads (by rw [hE, pullA_eq]) (by rw [hE, pullA_eq]) (by simp), ?_⟩
    simp [dataPorts, hi, ho, portOf]
  | pullSr hi ho hE =>
    refine ⟨_, .of_reads (by rw [hE, pullSr_eq]) (by rw [hE, pullSr_eq]) (by simp), ?_⟩
    simp [dataPorts, hi, ho, portOf]
  | trap hi ho hE =>
    refine ⟨_, hE s ▸ performs_takeBreak s, ?_⟩
    simp [dataPorts, hi, ho, portOf, BitVec.sub_sub, brkVectorLo, brkVectorHi]
  | trapReturn hi ho hE =>
    refine ⟨_, .of_reads (by rw [hE, returnFromBreak_eq]) (by rw [hE, returnFromBreak_eq]) (by simp), ?_⟩
    simp [dataPorts, hi, ho, portOf, BitVec.add_assoc]

theorem effect_performs (i : Instr) (s : State) :
    ∃ l, Performs l s (effect i.mnemonic i.operand s) ∧ l.map portOf = dataPorts i s :=
  (meaning_effect i).performs s

/-! ### Another memory that agrees where it is read -/

theorem generalRegister_setMem {r : State → Byte} (hr : r ∈ generalRegisters) (s : State) (m : Memory) :
    r (s.setMem m) = r s := by
  fin_cases hr <;> rfl

/-- The memory `m` agrees with `m₀` at the addresses that `l` reads. -/
def ReadsAgree (m m₀ : Memory) (l : List Access) : Prop := ∀ a v, Access.read a v ∈ l → m.read a = m₀.read a

@[simp] theorem readsAgree_read (m m₀ : Memory) (a : Addr) (v : Byte) (l : List Access) :
    ReadsAgree m m₀ (.read a v :: l) ↔ m.read a = m₀.read a ∧ ReadsAgree m m₀ l := by
  simp [ReadsAgree, or_imp, forall_and]

@[simp] theorem readsAgree_write (m m₀ : Memory) (a : Addr) (v : Byte) (l : List Access) :
    ReadsAgree m m₀ (.write a v :: l) ↔ ReadsAgree m m₀ l := by
  simp [ReadsAgree]

@[simp] theorem readsAgree_append (m m₀ : Memory) (l l' : List Access) :
    ReadsAgree m m₀ (l ++ l') ↔ ReadsAgree m m₀ l ∧ ReadsAgree m m₀ l' := by
  simp [ReadsAgree, or_imp, forall_and]

/-- On another memory that agrees at the addresses an instruction reads, it has the same effect but on memory. -/
theorem Meaning.agree {i : Instr} {E : State → State} (h : Meaning i E) {s : State} {m : Memory}
    (hm : ReadsAgree m s.mem (E s).accesses) : (E (s.setMem m)).setMem (E s).mem = E s := by
  cases h with
  | registers hports hE => rw [hE.setMem, State.setMem_setMem, State.setMem_self]
  | @reads src f hi hsrc hf hE =>
    obtain ⟨g, hfg, hg⟩ := hf
    rw [hE, hfg, (hg _).accesses, readSource_snd, readsAgree_append] at hm
    obtain ⟨hv, hr⟩ := readSource_agree src s m hm.2
    have hsnd : (readSource src (s.setMem m)).2 = (readSource src s).2.setMem m := by
      rw [readSource_snd, readSource_snd, hr]
      rfl
    rw [hE, hE, hfg, hfg, hv, hsnd, (hg _).setMem, State.setMem_setMem, State.setMem_self]
  | @stores mo r hi hop hr hE =>
    rw [hE, storeTo_eq, readsAgree_append, readsAgree_append] at hm
    obtain ⟨ha, hp⟩ := effAddr_agree mo s m hm.2.1
    rw [hE, hE, storeTo_eq, storeTo_eq, ha, hp, generalRegister_setMem hr]
    rfl
  | @modifies mo f hi hop hE =>
    rw [hE, modifyMem_eq, readsAgree_append, readsAgree_append, readsAgree_read] at hm
    obtain ⟨-, hptr, hv, -⟩ := hm
    obtain ⟨ha, hp⟩ := effAddr_agree mo s m hptr
    rw [hE, hE, modifyMem_eq, modifyMem_eq, ha, hp, State.setMem_mem, hv]
    rfl
  | @shifts mo f hi hop hE =>
    rw [hE, shiftPlace_mem_eq, readsAgree_append, readsAgree_append, readsAgree_read] at hm
    obtain ⟨-, hptr, hv, -⟩ := hm
    obtain ⟨ha, hp⟩ := effAddr_agree mo s m hptr
    rw [hE, hE, shiftPlace_mem_eq, shiftPlace_mem_eq, ha, hp, State.setMem_mem, hv]
    rfl
  | jumpIndirect hp hE =>
    simp only [hE, jumpIndirect_eq, readsAgree_append, readsAgree_read] at hm ⊢
    simp [hm, State.setMem]
  | call hi hop hE => simp [hE, callSub_eq, pushAddr_eq, State.setMem]
  | returns hi ho hE =>
    simp only [hE, returnSub_eq, popAddr_fst, popAddr_snd, readsAgree_append, readsAgree_read] at hm ⊢
    simp [hm, State.setMem]
  | pushA hi ho hE =>
    rw [hE, hE]
    rfl
  | pushSr hi ho hE =>
    rw [hE, hE]
    rfl
  | pullA hi ho hE =>
    simp only [hE, pullA_eq, readsAgree_append, readsAgree_read] at hm ⊢
    simp [hm, State.setMem]
  | pullSr hi ho hE =>
    simp only [hE, pullSr_eq, readsAgree_append, readsAgree_read] at hm ⊢
    simp [hm, State.setMem]
  | trap hi ho hE =>
    simp only [hE, takeBreak_eq, readsAgree_append, readsAgree_write, readsAgree_read] at hm ⊢
    simp [hm, State.setMem]
  | trapReturn hi ho hE =>
    simp only [hE, returnFromBreak_eq, readsAgree_append, readsAgree_read] at hm ⊢
    simp [hm, State.setMem]

/-! ### Steps -/

/-- What a step answers: the report of an opcode without a row, or the effect of the fetched instruction after its fetch. -/
theorem step_cases {s t : State} (h : step s = .next t) :
    (lookupOpcode (s.mem.read s.pc) = none ∧
      t = { s with pc := s.pc + 1#16, cycles := none, report := some ⟨s.mem.read s.pc, s.pc⟩,
                   accesses := [.read s.pc (s.mem.read s.pc)] }) ∨
    ∃ row, lookupOpcode (s.mem.read s.pc) = some row ∧
      t = effect (fetchedInstr row s).mnemonic (fetchedInstr row s).operand (afterFetch (fetchedInstr row s) row.cycles s) := by
  rcases hl : lookupOpcode (s.mem.read s.pc) with _ | row
  · rw [step_illegal s hl] at h
    cases h
    exact .inl ⟨rfl, rfl⟩
  · rw [step_of_row hl, exec_eq] at h
    cases h
    exact .inr ⟨row, rfl, rfl⟩

theorem fetchReads_reads (n : Nat) (s : State) : ∀ e ∈ fetchReads n s, ∃ a, e = .read a (s.mem.read a) := by
  intro e he
  obtain ⟨k, -, rfl⟩ := List.mem_map.1 he
  exact ⟨_, rfl⟩

/-- A step makes the reads of its fetch and then the accesses listed for its instruction. -/
theorem step_of_row_accesses {s : State} {row : Row} (hrow : lookupOpcode (s.mem.read s.pc) = some row) :
    ∃ t l, step s = .next t ∧ t.accesses = fetchReads (fetchedInstr row s).length s ++ l ∧
      replay t.accesses s.mem = some t.mem ∧
      l.map portOf = dataPorts (fetchedInstr row s) (afterFetch (fetchedInstr row s) row.cycles s) := by
  obtain ⟨l, ⟨hacc, hrep⟩, hports⟩ := effect_performs (fetchedInstr row s) (afterFetch (fetchedInstr row s) row.cycles s)
  refine ⟨_, l, (step_of_row hrow).trans (exec_eq _ _), hacc, ?_, hports⟩
  rw [hacc]
  exact (replay_append _ l _).trans (by rw [afterFetch, replay_reads (fetchReads_reads _ s)]; exact hrep)

theorem length_add_pointerPorts_le (m : MemOperand) (s : State) : modeLength m.mode + (pointerPorts m s).length ≤ 4 := by
  cases m <;> simp [modeLength, MemOperand.mode, pointerPorts]

/-- BRK's one byte with five accesses is the longest (95_test_vectors.md section 2). -/
theorem length_add_dataPorts_le (i : Instr) (s : State) : i.length + (dataPorts i s).length ≤ 6 := by
  have hlen : i.length = modeLength i.operand.mode := rfl
  rw [hlen, dataPorts]
  cases i.operand with
  | implied =>
    have hone : modeLength Operand.implied.mode = 1 := rfl
    dsimp only
    split_ifs <;> simp [hone]
  | memory m =>
    have hptr := length_add_pointerPorts_le m s
    have hmode : (Operand.memory m).mode = m.mode := rfl
    dsimp only
    rw [hmode]
    split_ifs <;> simp <;> omega
  | accumulator | immediate | indirect | relative => simp [modeLength, Operand.mode]

theorem head?_fetchReads_append {n : Nat} (hn : 1 ≤ n) (s : State) (l : List Access) :
    (fetchReads n s ++ l).head? = some (.read s.pc (s.mem.read s.pc)) := by
  obtain ⟨n, rfl⟩ := Nat.exists_eq_add_of_le' hn
  simp [fetchReads, List.range_succ_eq_map]

theorem length_fetchReads (n : Nat) (s : State) : (fetchReads n s).length = n := by
  simp [fetchReads]

/-- Settles O10: every instruction has a meaning, and every meaning adds the listed accesses. -/
theorem everyInstructionMakesItsListedAccesses : Obligations.EveryInstructionMakesItsListedAccesses := by
  intro i s
  obtain ⟨l, hl, hports⟩ := effect_performs i s
  exact ⟨_, exec_eq i s, by rw [hl.accesses, List.map_append, hports]⟩

/-- Settles O9: the fetch makes as many reads as the instruction has bytes, the first at PC, and the listed accesses are
bounded. -/
theorem stepAlwaysCompletesWithinSixAccesses : Obligations.StepAlwaysCompletesWithinSixAccesses := by
  intro s
  rcases hl : lookupOpcode (s.mem.read s.pc) with _ | row
  · exact ⟨_, step_illegal s hl, by simp⟩
  · obtain ⟨t, l, ht, hacc, -, hports⟩ := step_of_row_accesses hl
    have hbound := length_add_dataPorts_le (fetchedInstr row s) (afterFetch (fetchedInstr row s) row.cycles s)
    have hone : 1 ≤ (fetchedInstr row s).length := length_instrAt hl _ ▸ row.form.length_bounds.1
    have hlen : l.length = _ := (List.length_map ..).symm.trans (congrArg List.length hports)
    refine ⟨t, ht, ?_⟩
    rw [hacc, List.length_append, length_fetchReads, hlen, head?_fetchReads_append hone]
    exact ⟨by omega, hbound, rfl⟩

theorem replay_step {s t : State} (h : step s = .next t) : replay t.accesses s.mem = some t.mem := by
  rcases hl : lookupOpcode (s.mem.read s.pc) with _ | row
  · rw [step_illegal s hl] at h
    cases h
    exact replay_reads (by simp)
  · obtain ⟨t', l, ht, -, hrep, -⟩ := step_of_row_accesses hl
    cases h.symm.trans ht
    exact hrep

/-- The bytes a fetch reads decide what instruction it is. -/
theorem fetchedInstr_setMem {row : Row} {s : State} {m : Memory} (h : ReadsAgree m s.mem (fetchReads row.form.length s)) :
    fetchedInstr row (s.setMem m) = fetchedInstr row s := by
  unfold fetchedInstr
  generalize row.form = form at h
  cases form with
  | f1 i => rfl
  | f2 make =>
    rw [Form.length, fetchReads_two, readsAgree_read, readsAgree_read] at h
    obtain ⟨-, h1, -⟩ := h
    simp only [Form.instrAt, operandWord, State.setMem_mem, State.setMem_pc, loByte_wordOf, h1]
  | f3 make =>
    rw [Form.length, fetchReads_three, readsAgree_read, readsAgree_read, readsAgree_read] at h
    obtain ⟨-, h1, h2, -⟩ := h
    simp only [Form.instrAt, operandWord, State.setMem_mem, State.setMem_pc, h1, h2]

theorem fetchReads_setMem {n : Nat} {s : State} {m : Memory} (h : ReadsAgree m s.mem (fetchReads n s)) :
    fetchReads n (s.setMem m) = fetchReads n s := by
  refine List.map_congr_left fun k hk => ?_
  have hread := h (s.pc + BitVec.ofNat 16 k) _ (List.mem_map_of_mem hk)
  simp only [State.setMem_mem, State.setMem_pc, hread]

theorem afterFetch_setMem {i : Instr} {c : Nat} {s : State} {m : Memory} (h : ReadsAgree m s.mem (fetchReads i.length s)) :
    afterFetch i c (s.setMem m) = (afterFetch i c s).setMem m := by
  rw [afterFetch, fetchReads_setMem h]
  rfl

/-- On another memory that agrees at the addresses a step reads, the step is the same but for memory. -/
theorem step_agree {s t : State} {m : Memory} (h : step s = .next t) (hm : ReadsAgree m s.mem t.accesses) :
    ∃ t', step (s.setMem m) = .next t' ∧ t'.setMem t.mem = t := by
  rcases step_cases h with ⟨hnone, rfl⟩ | ⟨row, hrow, rfl⟩
  · have hop : m.read s.pc = s.mem.read s.pc := hm _ _ (List.mem_singleton.2 rfl)
    refine ⟨_, step_illegal (s.setMem m) (by rw [State.setMem_mem, State.setMem_pc, hop, hnone]), ?_⟩
    simp only [State.setMem_mem, State.setMem_pc, hop]
    rfl
  · have hlen := length_instrAt hrow (operandWord s)
    have hone : 1 ≤ row.form.length := row.form.length_bounds.1
    obtain ⟨l, ⟨hacc, -⟩, -⟩ := effect_performs (fetchedInstr row s) (afterFetch (fetchedInstr row s) row.cycles s)
    have hfetch : ReadsAgree m s.mem (fetchReads row.form.length s) := by
      rw [hacc, readsAgree_append] at hm
      exact hlen ▸ hm.1
    have hop : m.read s.pc = s.mem.read s.pc := hfetch _ _ (List.mem_of_mem_head? (by
      rw [← List.append_nil (fetchReads _ _), head?_fetchReads_append hone]; rfl))
    have hrow' : lookupOpcode ((s.setMem m).mem.read (s.setMem m).pc) = some row := by
      rw [State.setMem_mem, State.setMem_pc, hop, hrow]
    refine ⟨_, (step_of_row hrow').trans (exec_eq _ _), ?_⟩
    rw [fetchedInstr_setMem hfetch, afterFetch_setMem (hlen.symm ▸ hfetch)]
    exact (meaning_effect (fetchedInstr row s)).agree hm

/-- Settles O11: the accesses account for memory (`replay_step`), and memory that they do not read has no effect (`step_agree`).
-/
theorem stepReplaysOnItsMemory : Obligations.StepReplaysOnItsMemory :=
  ⟨fun _ _ h => replay_step h, fun _ _ _ h hm => step_agree h hm⟩

/-- Settles O18: the accesses of a step account for the memory it leaves. -/
theorem stepKeepsMemoryCanonical : Obligations.StepKeepsMemoryCanonical :=
  fun _ _ hinv h => wf_of_replay (replay_step h) hinv

end Sys2Proof.Machine

/-! What an instruction leaves alone: the registers, flags and bytes of memory its mnemonic writes (`writtenRegs`,
`writtenFlags`, `writtenCells`), and `effect_frame`, that nothing else changes. The obligations on writers (O15 to O17) and on
the outputs of a step (O12) are read off it; the instructions' own obligations take their frames from it. -/

namespace Sys2Proof.Machine

open Sys2Proof.Claims

/-! ### Frames of the operations -/

theorem frame_self (regs : List PortReg) (flags : List Flag) (cells : List Addr) (s : State) : Frame regs flags cells s s :=
  ⟨fun _ _ _ => rfl, fun _ _ => rfl, fun _ _ => rfl, ⟨rfl, rfl⟩⟩

theorem frame_mono {regs regs' : List PortReg} {flags flags' : List Flag} {cells cells' : List Addr} {s t : State}
    (h : Frame regs flags cells s t) (hr : regs ⊆ regs') (hf : flags ⊆ flags') (hc : cells ⊆ cells') :
    Frame regs' flags' cells' s t where
  keepsRegs r hsr hn := h.keepsRegs r hsr fun hm => hn (hr hm)
  keepsFlags f hn := h.keepsFlags f fun hm => hn (hf hm)
  keepsMem b hn := h.keepsMem b fun hm => hn (hc hm)
  keepsOutputs := h.keepsOutputs

theorem frame_trans {regs regs' : List PortReg} {flags flags' : List Flag} {cells cells' : List Addr} {s t u : State}
    (h : Frame regs flags cells s t) (h' : Frame regs' flags' cells' t u) :
    Frame (regs ++ regs') (flags ++ flags') (cells ++ cells') s u where
  keepsRegs r hsr hn := by
    rw [List.mem_append, not_or] at hn
    rw [h'.keepsRegs r hsr hn.2, h.keepsRegs r hsr hn.1]
  keepsFlags f hn := by
    rw [List.mem_append, not_or] at hn
    rw [h'.keepsFlags f hn.2, h.keepsFlags f hn.1]
  keepsMem b hn := by
    rw [List.mem_append, not_or] at hn
    rw [h'.keepsMem b hn.2, h.keepsMem b hn.1]
  keepsOutputs := ⟨h'.keepsOutputs.1.trans h.keepsOutputs.1, h'.keepsOutputs.2.trans h.keepsOutputs.2⟩

/-- The locations of the register port are six different ones (60_exceptions.md R180). -/
theorem portRead_portWrite_of_ne {q r : PortReg} (h : q ≠ r) (v : Nat) (s : State) :
    portRead q (portWrite r v s) = portRead q s := by
  cases r <;> cases q <;> simp [portRead, portWrite] at h ⊢

/-- A write of a register other than SR, through the port or by an instruction, changes nothing else. -/
theorem frame_portWrite {r : PortReg} (h : r ≠ .sr) (v : Nat) (s : State) : Frame [r] [] [] s (portWrite r v s) where
  keepsRegs q _ hq := portRead_portWrite_of_ne (fun e => hq (List.mem_singleton.2 e)) v s
  keepsFlags f _ := by
    cases r with
    | sr => exact absurd rfl h
    | a | x | y | sp | pc => rfl
  keepsMem b _ := by cases r <;> rfl
  keepsOutputs := by cases r <;> exact ⟨rfl, rfl⟩

theorem frame_setA (v : Byte) (s : State) : Frame [.a] [] [] s (s.setA v) := by
  simpa [portWrite] using frame_portWrite (r := .a) (by decide) v.toNat s

theorem frame_setX (v : Byte) (s : State) : Frame [.x] [] [] s (s.setX v) := by
  simpa [portWrite] using frame_portWrite (r := .x) (by decide) v.toNat s

theorem frame_setY (v : Byte) (s : State) : Frame [.y] [] [] s (s.setY v) := by
  simpa [portWrite] using frame_portWrite (r := .y) (by decide) v.toNat s

theorem frame_setSp (v : Byte) (s : State) : Frame [.sp] [] [] s (s.setSp v) := by
  simpa [portWrite] using frame_portWrite (r := .sp) (by decide) v.toNat s

theorem frame_setPc (w : Addr) (s : State) : Frame [.pc] [] [] s (s.setPc w) := by
  simpa [portWrite] using frame_portWrite (r := .pc) (by decide) w.toNat s

/-- SR written, with the flags outside `flags` as they were. -/
theorem frame_setSr {flags : List Flag} {v : Byte} {s : State} (h : ∀ f, f ∉ flags → getFlag f v = getFlag f s.sr) :
    Frame [] flags [] s (s.setSr v) where
  keepsRegs r hr _ := by
    cases r with
    | sr => exact absurd rfl hr
    | a | x | y | sp | pc => rfl
  keepsFlags := h
  keepsMem _ _ := rfl
  keepsOutputs := ⟨rfl, rfl⟩

/-- Every flag may be written. -/
theorem frame_setSr_all (v : Byte) (s : State) : Frame [] [.c, .z, .i, .d, .b, .u, .v, .n] [] s (s.setSr v) :=
  frame_setSr fun f hf => absurd (by cases f <;> decide) hf

theorem frame_updNZ (v : Byte) (s : State) : Frame [] [.z, .n] [] s (updNZ v s) :=
  frame_setSr fun f hf => by
    simp only [List.mem_cons, List.not_mem_nil, or_false, not_or] at hf
    simp [hf]

theorem frame_updFlag (f : Flag) (b : Bool) (s : State) : Frame [] [f] [] s (updFlag f b s) :=
  frame_setSr fun g hg => by simp [List.mem_singleton.not.1 hg]

/-- Memory at one cell, and the accesses made. -/
theorem frame_memWrite (a : Addr) (v : Byte) (s : State) : Frame [] [] [a] s (memWrite a v s) where
  keepsRegs r _ _ := by cases r <;> rfl
  keepsFlags _ _ := rfl
  keepsMem b hb := Memory.read_write_other _ _ _ _ (List.mem_singleton.not.1 hb)
  keepsOutputs := ⟨rfl, rfl⟩

theorem frame_setAccesses (l : List Access) (s : State) : Frame [] [] [] s (s.setAccesses l) where
  keepsRegs r _ _ := by cases r <;> rfl
  keepsFlags _ _ := rfl
  keepsMem _ _ := rfl
  keepsOutputs := ⟨rfl, rfl⟩

theorem frame_memRead (a : Addr) (s : State) : Frame [] [] [] s (memRead a s).2 := frame_setAccesses _ s

theorem frame_effAddr (m : MemOperand) (s : State) : Frame [] [] [] s (effAddr m s).2 := by
  rw [effAddr_snd]
  exact frame_setAccesses _ s

theorem frame_readSource (src : Source) (s : State) : Frame [] [] [] s (readSource src s).2 := by
  rw [readSource_snd]
  exact frame_setAccesses _ s

theorem frame_push8 (v : Byte) (s : State) : Frame [.sp] [] [stackAddr s.sp] s (push8 v s) :=
  frame_trans (frame_memWrite (stackAddr s.sp) v s) (frame_setSp _ _)

theorem frame_pop8 (s : State) : Frame [.sp] [] [] s (pop8 s).2 :=
  frame_trans (frame_setSp _ s) (frame_memRead _ _)

theorem frame_pushAddr (w : Addr) (s : State) :
    Frame [.sp, .sp] [] [stackAddr s.sp, stackAddr (s.sp - 1#8)] s (pushAddr w s) :=
  frame_trans (frame_push8 (hiByte w) s) (frame_push8 (loByte w) (push8 (hiByte w) s))

theorem frame_popAddr (s : State) : Frame [.sp, .sp] [] [] s (popAddr s).2 :=
  frame_trans (frame_pop8 s) (frame_pop8 _)

/-! ### Frames of the meanings -/

theorem frame_loadA (src : Source) (s : State) : Frame [.a] [.z, .n] [] s (loadA src s) :=
  frame_trans (frame_readSource src s) (frame_trans (frame_setA _ _) (frame_updNZ _ _))

theorem frame_loadX (src : Source) (s : State) : Frame [.x] [.z, .n] [] s (loadX src s) :=
  frame_trans (frame_readSource src s) (frame_trans (frame_setX _ _) (frame_updNZ _ _))

theorem frame_loadY (src : Source) (s : State) : Frame [.y] [.z, .n] [] s (loadY src s) :=
  frame_trans (frame_readSource src s) (frame_trans (frame_setY _ _) (frame_updNZ _ _))

theorem frame_logicA (f : Byte → Byte → Byte) (src : Source) (s : State) : Frame [.a] [.z, .n] [] s (logicA f src s) :=
  frame_trans (frame_readSource src s) (frame_trans (frame_setA _ _) (frame_updNZ _ _))

theorem frame_bitTest (src : Source) (s : State) : Frame [] [.z, .v, .n] [] s (bitTest src s) :=
  frame_trans (frame_readSource src s) (frame_setSr fun f hf => by
    simp only [List.mem_cons, List.not_mem_nil, or_false, not_or] at hf
    simp [hf])

/-- ADC and SBC, whatever the sum is. -/
theorem frame_addFlags (r : AddResult) (s : State) :
    Frame [.a] [.c, .z, .v, .n] [] s ((s.setSr (addFlags r s.sr)).setA r.value) := by
  have hsr : Frame [] [.c, .z, .v, .n] [] s (s.setSr (addFlags r s.sr)) := frame_setSr fun f hf => by
    simp only [List.mem_cons, List.not_mem_nil, or_false, not_or] at hf
    simp [hf]
  exact frame_trans hsr (frame_setA _ _)

theorem frame_addA (src : Source) (s : State) : Frame [.a] [.c, .z, .v, .n] [] s (addA src s) :=
  frame_trans (frame_readSource src s) (frame_addFlags _ _)

theorem frame_subA (src : Source) (s : State) : Frame [.a] [.c, .z, .v, .n] [] s (subA src s) :=
  frame_trans (frame_readSource src s) (frame_addFlags _ _)

theorem frame_compareWith (r : Byte) (src : Source) (s : State) : Frame [] [.c, .z, .n] [] s (compareWith r src s) :=
  frame_trans (frame_readSource src s) (frame_setSr fun f hf => by
    simp only [List.mem_cons, List.not_mem_nil, or_false, not_or] at hf
    simp [hf])

theorem frame_storeTo (m : MemOperand) (v : Byte) (s : State) : Frame [] [] [(effAddr m s).1] s (storeTo m v s) :=
  frame_trans (frame_effAddr m s) (frame_memWrite _ _ _)

theorem frame_modifyMem (f : Byte → Byte) (m : MemOperand) (s : State) :
    Frame [] [.z, .n] [(effAddr m s).1] s (modifyMem f m s) :=
  frame_trans (frame_effAddr m s) (frame_trans (frame_memRead _ _) (frame_trans (frame_memWrite _ _ _) (frame_updNZ _ _)))

theorem frame_shiftFlags (r : ShiftResult) (s : State) : Frame [] [.c, .z, .n] [] s (s.setSr (shiftFlags r s.sr)) :=
  frame_setSr fun f hf => by
    simp only [List.mem_cons, List.not_mem_nil, or_false, not_or] at hf
    simp [hf]

theorem frame_shiftPlace (f : Byte → Bool → ShiftResult) (p : Place) (s : State) :
    Frame (placeRegs p) [.c, .z, .n] (placeCells p s) s (shiftPlace f p s) := by
  cases p with
  | acc => exact frame_trans (frame_shiftFlags _ s) (frame_setA _ _)
  | mem m =>
    exact frame_trans (frame_effAddr m s)
      (frame_trans (frame_memRead _ _) (frame_trans (frame_memWrite _ _ _) (frame_shiftFlags _ _)))

theorem frame_pullA (s : State) : Frame [.a, .sp] [.z, .n] [] s (pullA s) := by
  have h := frame_trans (frame_pop8 s) (frame_trans (frame_setA (pop8 s).1 _) (frame_updNZ (pop8 s).1 _))
  exact frame_mono h (by decide) (List.Subset.refl _) (List.Subset.refl _)

theorem frame_pullSr (s : State) : Frame [.sp] [.c, .z, .i, .d, .b, .u, .v, .n] [] s (pullSr s) :=
  frame_trans (frame_pop8 s) (frame_setSr_all _ _)

theorem frame_indirectTarget (p : Addr) (s : State) : Frame [] [] [] s (indirectTarget p s).2 :=
  frame_trans (frame_memRead _ s) (frame_memRead _ _)

theorem frame_jumpIndirect (p : Addr) (s : State) : Frame [.pc] [] [] s (jumpIndirect p s) :=
  frame_trans (frame_indirectTarget p s) (frame_setPc _ _)

theorem frame_callSub (w : Addr) (s : State) :
    Frame [.pc, .sp] [] [stackAddr s.sp, stackAddr (s.sp - 1#8)] s (callSub w s) := by
  have h := frame_trans (frame_pushAddr (s.pc - 1#16) s) (frame_setPc w _)
  exact frame_mono h (by decide) (List.Subset.refl _) (List.Subset.refl _)

theorem frame_returnSub (s : State) : Frame [.pc, .sp] [] [] s (returnSub s) := by
  have h := frame_trans (frame_popAddr s) (frame_setPc ((popAddr s).1 + 1#16) _)
  exact frame_mono h (by decide) (List.Subset.refl _) (List.Subset.refl _)

theorem frame_takeBreak (s : State) :
    Frame [.pc, .sp] [.i] [stackAddr s.sp, stackAddr (s.sp - 1#8), stackAddr (s.sp - 2#8)] s (takeBreak s) := by
  have hsp : s.sp - 2#8 = s.sp - 1#8 - 1#8 := (BitVec.sub_sub s.sp 1#8 1#8).symm
  have h : Frame [.sp, .sp, .sp, .pc] [.i] [stackAddr s.sp, stackAddr (s.sp - 1#8), stackAddr (s.sp - 1#8 - 1#8)] s
      (takeBreak s) :=
    frame_trans (frame_pushAddr s.pc s) (frame_trans (frame_push8 _ (pushAddr s.pc s)) (frame_trans (frame_updFlag .i true _)
      (frame_trans (frame_memRead _ _) (frame_trans (frame_memRead _ _) (frame_setPc _ _)))))
  rw [hsp]
  exact frame_mono h (by decide) (List.Subset.refl _) (List.Subset.refl _)

theorem frame_returnFromBreak (s : State) :
    Frame [.pc, .sp] [.c, .z, .i, .d, .b, .u, .v, .n] [] s (returnFromBreak s) := by
  have h := frame_trans (frame_pop8 s) (frame_trans (frame_setSr_all (pop8 s).1 _) (frame_trans (frame_popAddr _)
    (frame_setPc (popAddr ((pop8 s).2.setSr (pop8 s).1)).1 _)))
  exact frame_mono h (by decide) (List.Subset.refl _) (List.Subset.refl _)

theorem frame_branchIf (cond : Bool) (d : Byte) (s : State) : Frame [.pc] [] [] s (branchIf cond d s) := by
  cases cond with
  | false => exact frame_self _ _ _ s
  | true => exact frame_setPc _ s

/-! ### The frame of an instruction -/

/-- The registers an instruction writes, but for SR (10_state.md R12, R13, R18). -/
def writtenRegs (n : Mnemonic) (o : Operand) : List PortReg :=
  match n with
  | .lda | .txa | .tya | .and | .ora | .eor | .adc | .sbc => [.a]
  | .pla => [.a, .sp]
  | .ldx | .tax | .tsx | .inx | .dex => [.x]
  | .ldy | .tay | .iny | .dey => [.y]
  | .txs | .pha | .php | .plp => [.sp]
  | .asl | .lsr | .rol | .ror => (o.place?.map placeRegs).getD []
  | .jmp | .bpl | .bmi | .bvc | .bvs | .bcc | .bcs | .bne | .beq => [.pc]
  | .jsr | .rts | .brk | .rti => [.pc, .sp]
  | .sta | .stx | .sty | .bit | .inc | .dec | .nop | .cmp | .cpx | .cpy | .clc | .sec | .cli | .sei | .clv | .cld | .sed => []

/-- The flags an instruction writes (10_state.md R21, R24 to R30). -/
def writtenFlags : Mnemonic → List Flag
  | .lda | .ldx | .ldy | .tax | .txa | .tay | .tya | .tsx | .pla | .and | .ora | .eor | .inc | .dec | .inx | .dex | .iny | .dey =>
    [.z, .n]
  | .adc | .sbc => [.c, .z, .v, .n]
  | .cmp | .cpx | .cpy | .asl | .lsr | .rol | .ror => [.c, .z, .n]
  | .bit => [.z, .v, .n]
  | .plp | .rti => [.c, .z, .i, .d, .b, .u, .v, .n]
  | .brk => [.i]
  | .clc | .sec => [.c]
  | .cli | .sei => [.i]
  | .clv => [.v]
  | .cld | .sed => [.d]
  | .sta | .stx | .sty | .txs | .pha | .php | .jmp | .jsr | .rts | .nop | .bpl | .bmi | .bvc | .bvs | .bcc | .bcs | .bne
    | .beq => []

/-- The bytes of memory an instruction writes (20_memory.md R43). -/
def writtenCells (n : Mnemonic) (o : Operand) (s : State) : List Addr :=
  match n with
  | .sta | .stx | .sty | .inc | .dec | .asl | .lsr | .rol | .ror => (o.place?.map (placeCells · s)).getD []
  | .pha | .php => [stackAddr s.sp]
  | .jsr => [stackAddr s.sp, stackAddr (s.sp - 1#8)]
  | .brk => [stackAddr s.sp, stackAddr (s.sp - 1#8), stackAddr (s.sp - 2#8)]
  | _ => []

section
variable {regs : List PortReg} {flags : List Flag} {o : Operand} {s : State}

theorem frame_atSource {f : Source → State → State} (hf : ∀ src, Frame regs flags [] s (f src s)) :
    Frame regs flags [] s (atSource o f s) := by
  unfold atSource
  split
  · exact hf _
  · exact frame_self ..

theorem frame_atMemory {f : MemOperand → State → State} (hf : ∀ m, Frame [] flags [(effAddr m s).1] s (f m s)) :
    Frame [] flags ((o.place?.map (placeCells · s)).getD []) s (atMemory o f s) := by
  unfold atMemory
  split
  · next m hm =>
    rw [place?_eq_of_memory? hm]
    exact hf m
  · exact frame_self ..

theorem frame_atPlace (f : Byte → Bool → ShiftResult) :
    Frame ((o.place?.map placeRegs).getD []) [.c, .z, .n] ((o.place?.map (placeCells · s)).getD []) s
      (atPlace o (shiftPlace f) s) := by
  unfold atPlace
  split
  · next p hp =>
    rw [hp]
    exact frame_shiftPlace f p s
  · exact frame_self ..

theorem frame_atRelative (cond : Bool) : Frame [.pc] [] [] s (atRelative o cond s) := by
  unfold atRelative
  split
  · exact frame_branchIf ..
  · exact frame_self ..

theorem frame_atJump : Frame [.pc] [] [] s (atJump o s) := by
  unfold atJump
  split
  · exact frame_setPc ..
  · exact frame_jumpIndirect ..
  · exact frame_self ..

theorem frame_atCall : Frame [.pc, .sp] [] [stackAddr s.sp, stackAddr (s.sp - 1#8)] s (atCall o s) := by
  unfold atCall
  split
  · exact frame_callSub ..
  · exact frame_self ..

end

/-- An instruction changes what its mnemonic writes and nothing else. -/
theorem effect_frame (n : Mnemonic) (o : Operand) (s : State) :
    Frame (writtenRegs n o) (writtenFlags n) (writtenCells n o s) s (effect n o s) := by
  cases n with
  | lda => exact frame_atSource fun src => frame_loadA src s
  | ldx => exact frame_atSource fun src => frame_loadX src s
  | ldy => exact frame_atSource fun src => frame_loadY src s
  | and | ora | eor => exact frame_atSource fun src => frame_logicA _ src s
  | bit => exact frame_atSource fun src => frame_bitTest src s
  | adc => exact frame_atSource fun src => frame_addA src s
  | sbc => exact frame_atSource fun src => frame_subA src s
  | cmp | cpx | cpy => exact frame_atSource fun src => frame_compareWith _ src s
  | sta | stx | sty => exact frame_atMemory fun m => frame_storeTo m _ s
  | inc | dec => exact frame_atMemory fun m => frame_modifyMem _ m s
  | asl | lsr | rol | ror => exact frame_atPlace _
  | txa | tya => exact frame_trans (frame_setA _ s) (frame_updNZ _ _)
  | tax | tsx | inx | dex => exact frame_trans (frame_setX _ s) (frame_updNZ _ _)
  | tay | iny | dey => exact frame_trans (frame_setY _ s) (frame_updNZ _ _)
  | txs => exact frame_setSp _ s
  | pha | php => exact frame_push8 _ s
  | pla => exact frame_pullA s
  | plp => exact frame_pullSr s
  | jmp => exact frame_atJump
  | jsr => exact frame_atCall
  | rts => exact frame_returnSub s
  | brk => exact frame_takeBreak s
  | rti => exact frame_returnFromBreak s
  | nop => exact frame_self _ _ _ s
  | bpl | bmi | bvc | bvs | bcc | bcs | bne | beq => exact frame_atRelative _
  | clc | sec | cli | sei | clv | cld | sed => exact frame_updFlag _ _ s

end Sys2Proof.Machine

/-! The obligations on who writes what (O15 to O17) and on the outputs of a step (O12), from `effect_frame`; reset (O13, O19,
O20), the register port (O21) and the bits of SR (O22). -/

namespace Sys2Proof.Machine

open Sys2Proof.Claims

/-! ### Writers -/

/-- A register that a frame does not list is as it was. -/
theorem keeps_of_frame {regs : List PortReg} {flags : List Flag} {cells : List Addr} {s t : State}
    (h : Frame regs flags cells s t) :
    (.a ∉ regs → t.a = s.a) ∧ (.x ∉ regs → t.x = s.x) ∧ (.y ∉ regs → t.y = s.y) ∧ (.sp ∉ regs → t.sp = s.sp) ∧
      (.pc ∉ regs → t.pc = s.pc) :=
  ⟨fun hr => BitVec.eq_of_toNat_eq (h.keepsRegs .a (by decide) hr),
    fun hr => BitVec.eq_of_toNat_eq (h.keepsRegs .x (by decide) hr),
    fun hr => BitVec.eq_of_toNat_eq (h.keepsRegs .y (by decide) hr),
    fun hr => BitVec.eq_of_toNat_eq (h.keepsRegs .sp (by decide) hr),
    fun hr => BitVec.eq_of_toNat_eq (h.keepsRegs .pc (by decide) hr)⟩

/-- The only register a shift can write is A, and that in Accumulator mode. -/
theorem mem_placeRegs_getD {r : PortReg} {o : Operand} (h : r ∈ (o.place?.map placeRegs).getD []) : r = .a ∧ o.mode = .acc := by
  cases o with
  | accumulator => exact ⟨List.mem_singleton.1 h, rfl⟩
  | implied | immediate | memory | indirect | relative => cases h

/-- A register that an instruction writes is A written by a shift in Accumulator mode, or one that its mnemonic writes in every
mode. -/
theorem mem_writtenRegs {r : PortReg} {n : Mnemonic} {o : Operand} (h : r ∈ writtenRegs n o) :
    (r = .a ∧ o.mode = .acc) ∨ r ∈ writtenRegs n .implied := by
  cases n with
  | asl | lsr | rol | ror => exact .inl (mem_placeRegs_getD h)
  | _ => exact .inr h

theorem not_mem_writtenRegs_of_ne {r : PortReg} {n : Mnemonic} {o : Operand} (hr : r ≠ .a) (h : r ∉ writtenRegs n .implied) :
    r ∉ writtenRegs n o := fun hm => (mem_writtenRegs hm).elim (fun h' => hr h'.1) h

theorem a_mem_writtenRegs (n : Mnemonic) : .a ∈ writtenRegs n .implied → n ∈ resultInA := by
  cases n <;> decide

theorem x_mem_writtenRegs (n : Mnemonic) : .x ∈ writtenRegs n .implied → n ∈ resultInX := by
  cases n <;> decide

theorem y_mem_writtenRegs (n : Mnemonic) : .y ∈ writtenRegs n .implied → n ∈ resultInY := by
  cases n <;> decide

theorem sp_mem_writtenRegs (n : Mnemonic) :
    .sp ∈ writtenRegs n .implied → n ∈ [.pha, .php, .pla, .plp, .jsr, .rts, .brk, .rti, .txs] := by
  cases n <;> decide

theorem pc_mem_writtenRegs (n : Mnemonic) :
    .pc ∈ writtenRegs n .implied → n ∈ [.jmp, .jsr, .rts, .brk, .rti, .bpl, .bmi, .bvc, .bvs, .bcc, .bcs, .bne, .beq] := by
  cases n <;> decide

theorem c_mem_writtenFlags (n : Mnemonic) : .c ∈ writtenFlags n → n ∈ carryWriters := by cases n <;> decide

theorem z_mem_writtenFlags (n : Mnemonic) : .z ∈ writtenFlags n → n ∈ zeroWriters := by cases n <;> decide

theorem n_mem_writtenFlags (n : Mnemonic) : .n ∈ writtenFlags n → n ∈ zeroWriters := by cases n <;> decide

theorem i_mem_writtenFlags (n : Mnemonic) : .i ∈ writtenFlags n → n ∈ [.brk, .sei, .cli, .plp, .rti] := by cases n <;> decide

theorem d_mem_writtenFlags (n : Mnemonic) : .d ∈ writtenFlags n → n ∈ [.sed, .cld, .plp, .rti] := by cases n <;> decide

theorem b_mem_writtenFlags (n : Mnemonic) : .b ∈ writtenFlags n → n ∈ [.plp, .rti] := by cases n <;> decide

theorem u_mem_writtenFlags (n : Mnemonic) : .u ∈ writtenFlags n → n ∈ [.plp, .rti] := by cases n <;> decide

theorem v_mem_writtenFlags (n : Mnemonic) : .v ∈ writtenFlags n → n ∈ [.adc, .sbc, .bit, .clv, .plp, .rti] := by
  cases n <;> decide

/-- An instruction whose row of 20_memory.md R43 has no write has no cell. -/
theorem writtenCells_eq_nil {i : Instr} (h : writesMemory i = false) (s : State) : writtenCells i.mnemonic i.operand s = [] := by
  simp only [writesMemory, Bool.or_eq_false_iff, Bool.and_eq_false_iff, decide_eq_false_iff_not, not_not] at h
  obtain ⟨hn, hshift⟩ := h
  have hmode : i.mode = i.operand.mode := rfl
  rw [hmode] at hshift
  generalize i.mnemonic = n at hn hshift ⊢
  generalize i.operand = o at hshift
  cases n with
  | asl | lsr | rol | ror =>
    have hacc : o.mode = .acc := hshift.resolve_left (by decide)
    cases o with
    | memory m => cases m <;> cases hacc
    | accumulator | implied | immediate | indirect | relative => rfl
  | sta | stx | sty | inc | dec | pha | php | jsr | brk => exact absurd (by decide) hn
  | _ => rfl

/-- Settles O15: an instruction writes the registers of `writtenRegs` alone. -/
theorem registersAreWrittenOnlyByTheirListedInstructions : Obligations.RegistersAreWrittenOnlyByTheirListedInstructions := by
  intro i s t h
  rw [exec_eq] at h
  cases h
  obtain ⟨ha, hx, hy, hsp, -⟩ := keeps_of_frame (effect_frame i.mnemonic i.operand s)
  refine ⟨fun hw => ha fun hm => ?_, fun hn => hx (not_mem_writtenRegs_of_ne (by decide) fun hm => hn (x_mem_writtenRegs _ hm)),
    fun hn => hy (not_mem_writtenRegs_of_ne (by decide) fun hm => hn (y_mem_writtenRegs _ hm)),
    fun hn => hsp (not_mem_writtenRegs_of_ne (by decide) fun hm => hn (sp_mem_writtenRegs _ hm))⟩
  simp only [writesA, Bool.or_eq_false_iff, decide_eq_false_iff_not] at hw
  exact (mem_writtenRegs hm).elim (fun hacc => hw.2 hacc.2) fun hm' => hw.1 (a_mem_writtenRegs _ hm')

/-- Settles O16: an instruction writes the flags of `writtenFlags` alone. -/
theorem flagsAreWrittenOnlyByTheirListedInstructions : Obligations.FlagsAreWrittenOnlyByTheirListedInstructions := by
  intro i s t h
  rw [exec_eq] at h
  cases h
  have hkeep := (effect_frame i.mnemonic i.operand s).keepsFlags
  exact ⟨fun hn => hkeep .c fun hm => hn (c_mem_writtenFlags _ hm),
    fun hn => ⟨hkeep .z fun hm => hn (z_mem_writtenFlags _ hm), hkeep .n fun hm => hn (n_mem_writtenFlags _ hm)⟩,
    fun hn => hkeep .i fun hm => hn (i_mem_writtenFlags _ hm), fun hn => hkeep .d fun hm => hn (d_mem_writtenFlags _ hm),
    fun hn => ⟨hkeep .b fun hm => hn (b_mem_writtenFlags _ hm), hkeep .u fun hm => hn (u_mem_writtenFlags _ hm)⟩,
    fun hn => hkeep .v fun hm => hn (v_mem_writtenFlags _ hm)⟩

/-- Settles O17: an instruction writes the cells of `writtenCells` alone, and PC only where `writtenRegs` lists it. -/
theorem memoryAndPcAreMovedOnlyByTheirListedInstructions : Obligations.MemoryAndPcAreMovedOnlyByTheirListedInstructions := by
  intro i s t h
  rw [exec_eq] at h
  cases h
  have hframe := effect_frame i.mnemonic i.operand s
  refine ⟨fun hw b => hframe.keepsMem b (by simp [writtenCells_eq_nil hw]), fun hw => ?_⟩
  obtain ⟨-, -, -, -, hpc⟩ := keeps_of_frame hframe
  exact hpc (not_mem_writtenRegs_of_ne (by decide) fun hm => of_decide_eq_false hw (pc_mem_writtenRegs _ hm))

/-! ### Outputs, reset and the register port -/

/-- The least and the greatest base cost (70_reset_and_hazards.md R191). -/
theorem publishedCycles_bounds (n : Mnemonic) (md : Mode) : 2 ≤ publishedCycles n md ∧ publishedCycles n md ≤ 7 := by
  unfold publishedCycles
  split_ifs <;> decide

/-- Settles O12: a fetch leaves the two outputs, no handler touches them, and the row's cost is a published one. -/
theorem stepOutputsAreCycleCostOrReport : Obligations.StepOutputsAreCycleCostOrReport := by
  intro s t h
  rcases step_cases h with ⟨hnone, rfl⟩ | ⟨row, hrow, rfl⟩
  · exact ⟨fun row hrow => (Option.some_ne_none row (hrow.symm.trans hnone)).elim, fun _ => ⟨rfl, rfl⟩⟩
  · obtain ⟨hcycles, hreport⟩ := (effect_frame (fetchedInstr row s).mnemonic (fetchedInstr row s).operand
      (afterFetch (fetchedInstr row s) row.cycles s)).keepsOutputs
    refine ⟨fun row' hrow' => ?_, fun hnone => (Option.some_ne_none row (hrow.symm.trans hnone)).elim⟩
    obtain rfl : row = row' := Option.some.inj (hrow.symm.trans hrow')
    have hcost := ((lookupOpcode_sound hrow).2 (operandWord s)).2.2
    obtain ⟨hlow, hhigh⟩ := publishedCycles_bounds (fetchedInstr row s).mnemonic (fetchedInstr row s).mode
    exact ⟨hcycles, hcost ▸ hlow, hcost ▸ hhigh, hreport⟩

/-- Settles O13: the fetch starts from `clearOutputs`, which drops all three. -/
theorem outputsOfTheLastStepAreNotRead : Obligations.OutputsOfTheLastStepAreNotRead := by
  intro s c r l
  have hclear : clearOutputs (((s.setCycles c).setReport r).setAccesses l) = clearOutputs s := rfl
  have hfetch : fetchInstr (((s.setCycles c).setReport r).setAccesses l) = fetchInstr s := by
    unfold fetchInstr
    rw [hclear]
    rfl
  rw [step, step, hfetch]

/-- Settles O19: the reset values, and the first access of the first step (O9). -/
theorem resetGivesTheRegistersTheirValues : Obligations.ResetGivesTheRegistersTheirValues := by
  refine ⟨fun _ => rfl, rfl, fun m => ⟨rfl, rfl, rfl, rfl, fun f => ?_, rfl, rfl, rfl, rfl, ?_⟩⟩
  · have hsr : (State.resetOver m).sr = 0xFF#8 := rfl
    rw [hsr]
    cases f <;> decide
  · obtain ⟨t, ht, -, -, hhead⟩ := stepAlwaysCompletesWithinSixAccesses (State.resetOver m)
    exact ⟨t, ht, hhead⟩

/-- Settles O20: the empty list is canonical, and reset leaves memory as it is given. -/
theorem resetMeetsTheInvariant : Obligations.ResetMeetsTheInvariant := ⟨rfl, fun _ h => h⟩

/-- Settles O21: the value by `BitVec.ofNat`'s width, the rest by `portRead_portWrite_of_ne`. -/
theorem hostPortWritesOneRegister : Obligations.HostPortWritesOneRegister := by
  intro r v s
  refine ⟨?_, fun q hq => portRead_portWrite_of_ne hq v s, ?_⟩
  · cases r <;> exact BitVec.toNat_ofNat ..
  · cases r <;> exact ⟨rfl, rfl, rfl, rfl⟩

/-- Settles O22: `flagBit` is the layout, and a write of one flag is read back by `getFlag_putFlag`. -/
theorem statusRegisterHasEightStoredBits : Obligations.StatusRegisterHasEightStoredBits :=
  ⟨fun _ => ⟨rfl, rfl, rfl, rfl, rfl, rfl, rfl, rfl⟩, fun f g v sr => getFlag_putFlag f g v sr⟩

end Sys2Proof.Machine

/-! Interrupt-Disable, Decimal, Break and bit 5 (10_state.md R21, R26 to R28): with one of them turned over, an instruction
leaves it turned over or loses it, and PHP and BRK store it. O14 is this over a step, O46 the case of D before ADC and SBC. -/

namespace Sys2Proof.Machine

open Sys2Proof.Claims

/-! ### Operations under a turn of a flag -/

theorem effAddr_setSr (m : MemOperand) (s : State) (r : Byte) :
    (effAddr m (s.setSr r)).1 = (effAddr m s).1 ∧ pointerReads m (s.setSr r) = pointerReads m s := by
  cases m <;> exact ⟨rfl, rfl⟩

theorem readSource_setSr (src : Source) (s : State) (r : Byte) :
    readSource src (s.setSr r) = ((readSource src s).1, (readSource src s).2.setSr r) := by
  cases src with
  | imm v => rfl
  | mem m => cases m <;> rfl

theorem readSource_flip (f : Flag) (src : Source) (s : State) :
    readSource src (flipFlag f s) = ((readSource src s).1, flipFlag f (readSource src s).2) := by
  have hsr : (readSource src s).2.sr = s.sr := by rw [readSource_snd]
  rw [flipFlag, readSource_setSr, flipFlag, hsr]

theorem storeTo_flip (f : Flag) (m : MemOperand) (v : Byte) (s : State) :
    storeTo m v (flipFlag f s) = flipFlag f (storeTo m v s) := by
  obtain ⟨ha, hp⟩ := effAddr_setSr m s (s.sr ^^^ flagMask f)
  rw [storeTo_eq, storeTo_eq, flipFlag, ha, hp]
  rfl

section
variable {f : Flag} (hf : f ∈ untestedFlags)
include hf

theorem modifyMem_flip (g : Byte → Byte) (m : MemOperand) (s : State) :
    modifyMem g m (flipFlag f s) = flipFlag f (modifyMem g m s) := by
  obtain ⟨ha, hp⟩ := effAddr_setSr m s (s.sr ^^^ flagMask f)
  rw [modifyMem_eq, modifyMem_eq, flipFlag, ha, hp, State.setSr_sr, setNZ_flip hf]
  rfl

theorem shiftPlace_mem_flip (g : Byte → Bool → ShiftResult) (m : MemOperand) (s : State) :
    shiftPlace g (.mem m) (flipFlag f s) = flipFlag f (shiftPlace g (.mem m) s) := by
  obtain ⟨ha, hp⟩ := effAddr_setSr m s (s.sr ^^^ flagMask f)
  rw [shiftPlace_mem_eq, shiftPlace_mem_eq, flipFlag, ha, hp, State.setSr_sr, getCarry_flip hf, shiftFlags_flip hf]
  rfl

theorem pullA_flip (s : State) : pullA (flipFlag f s) = flipFlag f (pullA s) := by
  rw [pullA_eq, pullA_eq, flipFlag, State.setSr_sr, setNZ_flip hf]
  rfl

theorem addA_flip (src : Source) (s : State) : addA src (flipFlag f s) = flipFlag f (addA src s) := by
  rw [addA_eq_addWith, readSource_flip, addWith_flip hf, addA_eq_addWith]

theorem subA_flip (src : Source) (s : State) : subA src (flipFlag f s) = flipFlag f (subA src s) := by
  rw [subA_eq_addWith, readSource_flip, addWith_flip hf, subA_eq_addWith]

end

/-! ### What a turn of a flag can change -/

/-- `t` and `t'` are the same but for the flag `f` in SR and, at `cell`, in memory; the last where memory was canonical, `m`
before both. -/
structure DiffersInFlag (f : Flag) (cell : Option Addr) (m : Memory) (t t' : State) : Prop where
  registers : t'.a = t.a ∧ t'.x = t.x ∧ t'.y = t.y ∧ t'.sp = t.sp ∧ t'.pc = t.pc
  outputs : t'.cycles = t.cycles ∧ t'.report = t.report ∧ t'.accesses.map portOf = t.accesses.map portOf
  flags : ∀ g, g ≠ f → getFlag g t'.sr = getFlag g t.sr
  mem : ∀ a, cell ≠ some a → t'.mem.read a = t.mem.read a
  bits : m.wf = true → ∀ a g, g ≠ f → getFlag g (t'.mem.read a) = getFlag g (t.mem.read a)

theorem differsInFlag_of_flip {f : Flag} {t t' : State} (h : t' = flipFlag f t ∨ t' = t) (cell : Option Addr) (m : Memory) :
    DiffersInFlag f cell m t t' := by
  rcases h with rfl | rfl
  · exact ⟨⟨rfl, rfl, rfl, rfl, rfl⟩, ⟨rfl, rfl, rfl⟩, fun g hg => getFlag_flip_of_ne hg t.sr, fun _ _ => rfl, fun _ _ _ _ => rfl⟩
  · exact ⟨⟨rfl, rfl, rfl, rfl, rfl⟩, ⟨rfl, rfl, rfl⟩, fun _ _ => rfl, fun _ _ => rfl, fun _ _ _ _ => rfl⟩

/-- Two bytes that differ in one flag at most, stored in the same place. -/
theorem getFlag_read_write {m : Memory} (hm : m.wf = true) (c : Addr) {v v' : Byte} {g : Flag} (hv : getFlag g v' = getFlag g v)
    (a : Addr) : getFlag g ((m.write c v').read a) = getFlag g ((m.write c v).read a) := by
  by_cases ha : a = c
  · rw [ha, Memory.read_write_same _ _ _ hm, Memory.read_write_same _ _ _ hm, hv]
  · rw [Memory.read_write_other _ _ _ _ ha, Memory.read_write_other _ _ _ _ ha]

/-- PHP stores SR as it stands. -/
theorem pushSr_differs (f : Flag) (s : State) :
    DiffersInFlag f (some (stackAddr s.sp)) s.mem (push8 s.sr s) (push8 (flipFlag f s).sr (flipFlag f s)) where
  registers := ⟨rfl, rfl, rfl, rfl, rfl⟩
  outputs := ⟨rfl, rfl, by simp [push8_eq, flipFlag, portOf]⟩
  flags _ hg := getFlag_flip_of_ne hg s.sr
  mem a ha := by
    have hne : a ≠ stackAddr s.sp := fun e => ha (congrArg some e.symm)
    exact (Memory.read_write_other _ _ _ _ hne).trans (Memory.read_write_other _ _ _ _ hne).symm
  bits hm a g hg := getFlag_read_write hm _ (getFlag_flip_of_ne hg s.sr) a

/-- A flag written is the same before and after a turn of another, or of itself. -/
theorem getFlag_putFlag_flip {f g : Flag} (hg : g ≠ f) (p : Flag) (b : Bool) (sr : Byte) :
    getFlag g (putFlag p b (sr ^^^ flagMask f)) = getFlag g (putFlag p b sr) := by
  rw [getFlag_putFlag, getFlag_putFlag, getFlag_flip_of_ne hg]

/-- BRK stores SR with Break forced, two slots below SP. -/
theorem takeBreak_differs (f : Flag) (s : State) :
    DiffersInFlag f (some (stackAddr (s.sp - 2#8))) s.mem (takeBreak s) (takeBreak (flipFlag f s)) := by
  have hsp : s.sp - 2#8 = s.sp - 1#8 - 1#8 := (BitVec.sub_sub s.sp 1#8 1#8).symm
  rw [takeBreak_eq, takeBreak_eq, hsp]
  exact {
    registers := ⟨rfl, rfl, rfl, rfl, rfl⟩
    outputs := ⟨rfl, rfl, by simp [flipFlag, portOf]⟩
    flags := fun g hg => getFlag_putFlag_flip hg .i true s.sr
    mem := fun a ha => by
      have hne : a ≠ stackAddr (s.sp - 1#8 - 1#8) := fun e => ha (congrArg some e.symm)
      exact (Memory.read_write_other _ _ _ _ hne).trans (Memory.read_write_other _ _ _ _ hne).symm
    bits := fun hm a g hg => getFlag_read_write (Memory.write_wf _ _ _ (Memory.write_wf _ _ _ hm)) _
      (getFlag_putFlag_flip hg .b true s.sr) a }

/-- A turn of an untested flag before an instruction, by its meaning; `cell` is where PHP and BRK store SR. -/
theorem Meaning.differs {i : Instr} {E : State → State} (h : Meaning i E) {f : Flag} (hf : f ∈ untestedFlags) {s : State}
    {cell : Option Addr} (hphp : i.mnemonic = .php → cell = some (stackAddr s.sp))
    (hbrk : i.mnemonic = .brk → cell = some (stackAddr (s.sp - 2#8))) :
    DiffersInFlag f cell s.mem (E s) (E (flipFlag f s)) := by
  cases h with
  | registers hports hE => exact differsInFlag_of_flip (hE.flip f hf s) _ _
  | @reads src g hi hsrc hg hE =>
    obtain ⟨k, hk, hreg⟩ := hg
    rw [hE, hE, hk, hk, readSource_flip]
    exact differsInFlag_of_flip ((hreg _).flip f hf _) _ _
  | @stores m r hi hm hr hE =>
    have hreg : r (flipFlag f s) = r s := by fin_cases hr <;> rfl
    exact differsInFlag_of_flip (.inl (by rw [hE, hE, hreg, storeTo_flip])) _ _
  | modifies hi hm hE => exact differsInFlag_of_flip (.inl (by rw [hE, hE, modifyMem_flip hf])) _ _
  | shifts hi hm hE => exact differsInFlag_of_flip (.inl (by rw [hE, hE, shiftPlace_mem_flip hf])) _ _
  | jumpIndirect hp hE => exact differsInFlag_of_flip (.inl (by rw [hE, hE]; rfl)) _ _
  | call hi hm hE => exact differsInFlag_of_flip (.inl (by rw [hE, hE]; rfl)) _ _
  | returns hi ho hE => exact differsInFlag_of_flip (.inl (by rw [hE, hE]; rfl)) _ _
  | pushA hi ho hE => exact differsInFlag_of_flip (.inl (by rw [hE, hE]; rfl)) _ _
  | pushSr hi ho hE =>
    rw [hE, hE, hphp hi]
    exact pushSr_differs f s
  | pullA hi ho hE => exact differsInFlag_of_flip (.inl (by rw [hE, hE, pullA_flip hf])) _ _
  | pullSr hi ho hE => exact differsInFlag_of_flip (.inr (by rw [hE, hE]; rfl)) _ _
  | trap hi ho hE =>
    rw [hE, hE, hbrk hi]
    exact takeBreak_differs f s
  | trapReturn hi ho hE => exact differsInFlag_of_flip (.inr (by rw [hE, hE]; rfl)) _ _

theorem opcode_of_php {i : Instr} (h : i.mnemonic = .php) : i.opcode = Instr.php.opcode := by
  cases i with
  | php => rfl
  | _ => cases h

theorem opcode_of_brk {i : Instr} (h : i.mnemonic = .brk) : i.opcode = Instr.brk.opcode := by
  cases i with
  | brk => rfl
  | _ => cases h

/-- Settles O46: D is none of the flags the sum and its flags depend on. -/
theorem decimalFlagChangesNoArithmetic : Obligations.DecimalFlagChangesNoArithmetic := by
  intro i s t hi h
  rw [exec_eq] at h
  cases h
  have hreader : i.mnemonic ∈ operandReaders := by rcases hi with hi | hi <;> rw [hi] <;> decide
  obtain ⟨src, hsrc⟩ := source?_of_operandReader hreader
  rw [exec_eq]
  rcases hi with hi | hi
  · rw [hi, effect, effect, atSource_some _ _ _ _ hsrc, atSource_some _ _ _ _ hsrc, addA_flip (by decide)]
  · rw [hi, effect, effect, atSource_some _ _ _ _ hsrc, atSource_some _ _ _ _ hsrc, subA_flip (by decide)]

/-- Settles O14: the fetch does not read SR, and after it `Meaning.differs`. -/
theorem nothingTestsInterruptDecimalBreakOrBitFive : Obligations.NothingTestsInterruptDecimalBreakOrBitFive := by
  intro f s t t' hf h h'
  have hd : DiffersInFlag f (storedSrAt s) s.mem t t' := by
    rcases step_cases h with ⟨hnone, rfl⟩ | ⟨row, hrow, rfl⟩
    · cases h'.symm.trans (step_illegal (flipFlag f s) hnone)
      exact differsInFlag_of_flip (.inl rfl) _ _
    · cases h'.symm.trans ((step_of_row (s := flipFlag f s) hrow).trans (exec_eq _ _))
      have hop : (fetchedInstr row s).opcode = s.mem.read s.pc :=
        (((lookupOpcode_sound hrow).2 _).1).trans (lookupOpcode_sound hrow).1
      refine (meaning_effect (fetchedInstr row s)).differs hf (s := afterFetch (fetchedInstr row s) row.cycles s)
        (fun hi => ?_) (fun hi => ?_)
      · rw [storedSrAt, ← hop, opcode_of_php hi]
        rfl
      · rw [storedSrAt, ← hop, opcode_of_brk hi]
        rfl
  obtain ⟨⟨ha, hx, hy, hsp, hpc⟩, ⟨hc, hr, hp⟩, hflags, hmem, hbits⟩ := hd
  exact ⟨ha, hx, hy, hsp, hpc, hc, hr, hp, hflags, hmem, hbits⟩

end Sys2Proof.Machine

/-! The addressing modes as numbers (30_encoding.md R60 to R71), O26; and the families that move a byte or combine two, each of
its meaning's value and `effect_frame`'s frame: loads, stores, transfers, stack, logic, BIT, increments (O27 to O35). -/

namespace Sys2Proof.Machine

open Sys2Proof.Claims

/-! ### Addresses as numbers -/

theorem zext16_eq_ofNat (v : Byte) : zext16 v = BitVec.ofNat 16 v.toNat := by
  rw [← zext16_toNat, BitVec.ofNat_toNat, BitVec.setWidth_eq]

theorem wordOf_toNat_hi (hi lo : Byte) : (wordOf hi lo).toNat = 256 * hi.toNat + lo.toNat := by
  rw [wordOf_toNat, Nat.mul_comm]

theorem toNat_add_zext16 (w : Addr) (v : Byte) : (w + zext16 v).toNat = (w.toNat + v.toNat) % 65536 := by
  rw [BitVec.toNat_add, zext16_toNat]

/-- A pointer is read from page zero, its second byte at the next location there (R66, R67). -/
theorem pointerRead_toNat (p : Byte) (s : State) :
    (pointerRead p s).1.toNat = 256 * (s.mem.read (BitVec.ofNat 16 ((p.toNat + 1) % 256))).toNat +
      (s.mem.read (BitVec.ofNat 16 p.toNat)).toNat := by
  have hnext : (p + 1#8).toNat = (p.toNat + 1) % 256 := BitVec.toNat_add _ _
  rw [pointerRead_fst, wordOf_toNat_hi, zext16_eq_ofNat, zext16_eq_ofNat, hnext]

/-- The second byte of an indirect pointer is in the page of the first (R68). -/
theorem pointerHigh_eq_ofNat (w : Addr) :
    pointerHigh w = BitVec.ofNat 16 (256 * (w.toNat / 256) + (w.toNat + 1) % 256) := by
  have hw := w.isLt
  apply BitVec.eq_of_toNat_eq
  rw [pointerHigh, wordOf_toNat, hiByte_toNat, BitVec.toNat_add, loByte_toNat, BitVec.toNat_ofNat, BitVec.toNat_ofNat]
  omega

theorem indirectTarget_toNat (w : Addr) (s : State) :
    (indirectTarget w s).1.toNat =
      256 * (s.mem.read (BitVec.ofNat 16 (256 * (w.toNat / 256) + (w.toNat + 1) % 256))).toNat + (s.mem.read w).toNat := by
  rw [indirectTarget_fst, wordOf_toNat_hi, pointerHigh_eq_ofNat]

theorem toInt_sext16 (d : Byte) : (sext16 d).toInt = d.toInt := BitVec.toInt_signExtend_of_le (by decide)

/-- A branch goes to PC plus the signed displacement, modulo 65536 (R71). -/
theorem branchTarget_toNat (d : Byte) (s : State) :
    ((branchTarget d s).toNat : Int) = ((s.pc.toNat : Int) + d.toInt) % 65536 := by
  have h : ((sext16 d).toNat : Int) % 65536 = d.toInt % 65536 := by
    rw [← toInt_sext16, BitVec.toInt_eq_toNat_bmod]
    exact (Int.bmod_emod ..).symm
  rw [branchTarget, BitVec.toNat_add]
  push_cast
  rw [Int.add_emod, h, ← Int.add_emod]

/-- An instruction without an operand byte (R70). -/
theorem encode_of_noOperandByte {i : Instr} (h : i.operand = .implied ∨ i.operand = .accumulator) : encode i = [i.opcode] := by
  rcases h with h | h <;> rw [encode, h] <;> rfl

/-- Settles O26: each mode as a number, by the lemmas above; the frames are those of the operand forms. -/
theorem effectiveAddressesAreTheSpecified : Obligations.EffectiveAddressesAreTheSpecified := by
  intro z w s
  refine ⟨zext16_toNat z, ?_, ?_, rfl, toNat_add_zext16 w s.x, toNat_add_zext16 w s.y, ?_, ?_, rfl,
    fun m => ⟨readSource_mem m s, frame_effAddr m s, frame_readSource _ s⟩, indirectTarget_toNat w s, frame_indirectTarget w s,
    branchTarget_toNat z s, fun f => ⟨rfl, rfl, frame_shiftPlace f .acc s⟩, fun i => encode_of_noOperandByte⟩
  · exact (zext16_toNat _).trans (BitVec.toNat_add z s.x)
  · exact (zext16_toNat _).trans (BitVec.toNat_add z s.y)
  · rw [effAddr, pointerRead_toNat, BitVec.toNat_add]
    congr 5
    omega
  · rw [effAddr, toNat_add_zext16, pointerRead_toNat]

/-! ### An instruction by its operand -/

section
variable {i : Instr} {n : Mnemonic} (hi : i.mnemonic = n) (s : State)
include hi

theorem exec_of_mnemonic : exec i s = .next (effect n i.operand s) := by
  rw [exec_eq, hi]

theorem exec_source {f : Source → State → State} {src : Source} (hf : ∀ o, effect n o s = atSource o f s)
    (hsrc : i.operand.source? = some src) : exec i s = .next (f src s) := by
  rw [exec_of_mnemonic hi, hf, atSource_some _ _ _ _ hsrc]

theorem exec_memory {f : MemOperand → State → State} {m : MemOperand} (hf : ∀ o, effect n o s = atMemory o f s)
    (hm : i.operand.memory? = some m) : exec i s = .next (f m s) := by
  rw [exec_of_mnemonic hi, hf, atMemory_some _ _ _ _ hm]

theorem exec_place {f : Place → State → State} {p : Place} (hf : ∀ o, effect n o s = atPlace o f s)
    (hp : i.operand.place? = some p) : exec i s = .next (f p s) := by
  rw [exec_of_mnemonic hi, hf, atPlace_some _ _ _ _ hp]

end

/-! ### Loads, stores and transfers -/

/-- Settles O27: each load is its meaning at the source. -/
theorem loadsPutTheOperandInTheRegister : Obligations.LoadsPutTheOperandInTheRegister := by
  intro i src s hsrc
  exact ⟨fun hi => ⟨loadA src s, exec_source hi s (fun _ => rfl) hsrc, rfl, nzOf_updNZ _ _, frame_loadA src s⟩,
    fun hi => ⟨loadX src s, exec_source hi s (fun _ => rfl) hsrc, rfl, nzOf_updNZ _ _, frame_loadX src s⟩,
    fun hi => ⟨loadY src s, exec_source hi s (fun _ => rfl) hsrc, rfl, nzOf_updNZ _ _, frame_loadY src s⟩⟩

theorem storeTo_read (m : MemOperand) (v : Byte) {s : State} (h : Inv s) : (storeTo m v s).mem.read (effAddr m s).1 = v := by
  rw [storeTo_eq]
  exact Memory.read_write_same _ _ _ h

/-- Settles O28: each store is `storeTo` with its register. -/
theorem storesPutTheRegisterInMemory : Obligations.StoresPutTheRegisterInMemory := by
  intro i m s hm
  exact ⟨fun hi => ⟨storeTo m s.a s, exec_memory hi s (fun _ => rfl) hm, storeTo_read m s.a, frame_storeTo m s.a s⟩,
    fun hi => ⟨storeTo m s.x s, exec_memory hi s (fun _ => rfl) hm, storeTo_read m s.x, frame_storeTo m s.x s⟩,
    fun hi => ⟨storeTo m s.y s, exec_memory hi s (fun _ => rfl) hm, storeTo_read m s.y, frame_storeTo m s.y s⟩⟩

/-- Settles O29: each transfer is an instruction of one value, and its frame is its mnemonic's. -/
theorem transfersCopyOneRegister : Obligations.TransfersCopyOneRegister := by
  intro s
  exact ⟨⟨_, exec_eq .tax s, rfl, nzOf_updNZ _ _, effect_frame .tax .implied s⟩,
    ⟨_, exec_eq .txa s, rfl, nzOf_updNZ _ _, effect_frame .txa .implied s⟩,
    ⟨_, exec_eq .tay s, rfl, nzOf_updNZ _ _, effect_frame .tay .implied s⟩,
    ⟨_, exec_eq .tya s, rfl, nzOf_updNZ _ _, effect_frame .tya .implied s⟩,
    ⟨_, exec_eq .tsx s, rfl, nzOf_updNZ _ _, effect_frame .tsx .implied s⟩,
    ⟨_, exec_eq .txs s, rfl, effect_frame .txs .implied s⟩⟩

/-! ### One byte on the stack -/

theorem push8_read (v : Byte) {s : State} (h : Inv s) : (push8 v s).mem.read (stackAddr s.sp) = v :=
  Memory.read_write_same _ _ _ h

/-- Settles O30: one push or one pop each. -/
theorem stackInstructionsMoveOneByte : Obligations.StackInstructionsMoveOneByte := by
  intro s
  exact ⟨⟨_, exec_eq .pha s, push8_read s.a, rfl, frame_push8 s.a s⟩,
    ⟨_, exec_eq .php s, push8_read s.sr, rfl, frame_push8 s.sr s⟩,
    ⟨_, exec_eq .pla s, rfl, rfl, nzOf_updNZ _ _, frame_pullA s⟩,
    ⟨_, exec_eq .plp s, rfl, rfl, frame_pullSr s⟩⟩

/-- Settles O39: PLA reads the slot PHA wrote, since the decrement and the increment of SP cancel. -/
theorem phaThenPlaRestoresAAndSp : Obligations.PhaThenPlaRestoresAAndSp := by
  intro s v hinv
  have hsp : s.sp - 1#8 + 1#8 = s.sp := BitVec.sub_add_cancel s.sp 1#8
  have hread : ((push8 s.a s).setA v).mem.read (stackAddr (((push8 s.a s).setA v).sp + 1#8)) = s.a := by
    rw [push8_eq, State.setA_sp, hsp]
    exact Memory.read_write_same _ _ _ hinv
  refine ⟨_, _, exec_eq .pha s, exec_eq .pla _, hread, hsp, rfl, ?_⟩
  exact nzOf_of_sr (congrArg (setNZ · s.sr) hread)

/-! ### Logic -/

theorem logicA_a (f : Byte → Byte → Byte) (src : Source) (s : State) : (logicA f src s).a = f s.a (readSource src s).1 := by
  rw [logicA_eq]

/-- Settles O31: each is `logicA` with its operation, bit by bit. -/
theorem logicalInstructionsCombineBitwise : Obligations.LogicalInstructionsCombineBitwise := by
  intro i src s hsrc
  refine ⟨fun hi => ⟨_, exec_source hi s (fun _ => rfl) hsrc, fun k _ => ?_, nzOf_updNZ _ _, frame_logicA _ src s⟩,
    fun hi => ⟨_, exec_source hi s (fun _ => rfl) hsrc, fun k _ => ?_, nzOf_updNZ _ _, frame_logicA _ src s⟩,
    fun hi => ⟨_, exec_source hi s (fun _ => rfl) hsrc, fun k _ => ?_, nzOf_updNZ _ _, frame_logicA _ src s⟩⟩
  · rw [logicA_a, BitVec.getLsbD_and]
  · rw [logicA_a, BitVec.getLsbD_or]
  · rw [logicA_a, BitVec.getLsbD_xor]

/-- No bit is in both. -/
theorem and_eq_zero_iff (p q : Byte) : p &&& q = 0#8 ↔ ∀ k < 8, ¬(p.getLsbD k = true ∧ q.getLsbD k = true) := by
  rw [BitVec.eq_of_getLsbD_eq_iff]
  simp

/-- Settles O32: the flags of `bitTestFlags`. -/
theorem bitTestsWithoutChangingA : Obligations.BitTestsWithoutChangingA := by
  intro i m s hi hm
  have hsrc : i.operand.source? = some (.mem m) := by rw [eq_memory_of_memory? hm]; rfl
  refine ⟨_, exec_source hi s (fun _ => rfl) hsrc, ?_, ?_, ?_, frame_bitTest (.mem m) s⟩
  · simp [bitTest_eq, and_eq_zero_iff]
  · simp [bitTest_eq]
  · simp [bitTest_eq]

/-! ### Increments -/

theorem toNat_add_one (v : Byte) : (v + 1#8).toNat = (v.toNat + 1) % 256 := BitVec.toNat_add _ _

theorem toNat_sub_one (v : Byte) : (v - 1#8).toNat = (v.toNat + 255) % 256 := by
  rw [BitVec.toNat_sub]
  simp [Nat.add_comm]

theorem modifyMem_read (f : Byte → Byte) (m : MemOperand) {s : State} (h : Inv s) :
    (modifyMem f m s).mem.read (effAddr m s).1 = f (s.mem.read (effAddr m s).1) := by
  rw [modifyMem_eq]
  exact Memory.read_write_same _ _ _ h

theorem nzOf_modifyMem_value (f : Byte → Byte) (m : MemOperand) (s : State) :
    NzOf (f (s.mem.read (effAddr m s).1)) (modifyMem f m s) := by
  rw [modifyMem_eq]
  exact nzOf_of_sr rfl

/-- Settles O33: `modifyMem` with one more or one less. -/
theorem incAndDecChangeMemoryByOne : Obligations.IncAndDecChangeMemoryByOne := by
  intro i m s hm
  exact ⟨fun hi => ⟨_, _, exec_memory hi s (fun _ => rfl) hm, toNat_add_one _, modifyMem_read _ m, nzOf_modifyMem_value _ m s,
      frame_modifyMem _ m s⟩,
    fun hi => ⟨_, _, exec_memory hi s (fun _ => rfl) hm, toNat_sub_one _, modifyMem_read _ m, nzOf_modifyMem_value _ m s,
      frame_modifyMem _ m s⟩⟩

/-- Settles O35: the register, with `SetNZ` of it. -/
theorem registerIncrementsChangeByOne : Obligations.RegisterIncrementsChangeByOne := by
  intro s
  exact ⟨⟨_, exec_eq .inx s, toNat_add_one s.x, nzOf_updNZ _ _, effect_frame .inx .implied s⟩,
    ⟨_, exec_eq .dex s, toNat_sub_one s.x, nzOf_updNZ _ _, effect_frame .dex .implied s⟩,
    ⟨_, exec_eq .iny s, toNat_add_one s.y, nzOf_updNZ _ _, effect_frame .iny .implied s⟩,
    ⟨_, exec_eq .dey s, toNat_sub_one s.y, nzOf_updNZ _ _, effect_frame .dey .implied s⟩⟩

/-- The dispatch table's entry for INX stands at the index `Listed.inx` names (30_encoding.md R72). -/
theorem lookupOpcode_inx : lookupOpcode 0xE8#8 = some ⟨0xE8#8, .f1 .inx, 2⟩ :=
  have hrow : opcodeTable[137]? = some ⟨0xE8#8, .f1 .inx, 2⟩ := rfl
  lookupOpcode_of_mem (List.mem_of_getElem? hrow)

/-- Settles O34: the fetch of INX's one byte, then O35's increment and its frame. -/
theorem inxIncrementsXInOneStep : Obligations.InxIncrementsXInOneStep := by
  refine ⟨rfl, fun s hop => ?_⟩
  have hrow : lookupOpcode (s.mem.read s.pc) = some ⟨0xE8#8, .f1 .inx, 2⟩ := hop ▸ lookupOpcode_inx
  have hpc : (s.pc + 1#16).toNat = (s.pc.toNat + 1) % 65536 := BitVec.toNat_add _ _
  have hstep : step s = .next (effect .inx .implied (fetchedState 1#16 (some 2) [.read s.pc 0xE8#8] s)) := by
    rw [step_legal s _ _ (fetchInstr_f1 s _ .inx hrow rfl), exec_eq, hop]
    rfl
  have hframe := effect_frame .inx .implied (fetchedState 1#16 (some 2) [.read s.pc 0xE8#8] s)
  refine ⟨_, hstep, toNat_add_one s.x, nzOf_updNZ _ _, hpc, rfl, rfl, rfl, rfl, rfl, rfl, rfl, fun f hz hn => ?_⟩
  exact hframe.keepsFlags f (by simp [writtenFlags, hz, hn])

end Sys2Proof.Machine

/-! Jumps, calls and returns, the trap and the return from it (45_jump_call.md, 46_system.md, 60_exceptions.md), O36 to O42;
branches and flag instructions (49_branch_flag.md), O50 and O51. -/

namespace Sys2Proof.Machine

open Sys2Proof.Claims

/-! ### Jumps -/

/-- Settles O36: the address of the pointer's second byte is `pointerHigh`, as the number R68 gives for it. -/
theorem jumpsSetPcToTheirTarget : Obligations.JumpsSetPcToTheirTarget := by
  intro w s
  refine ⟨⟨_, exec_eq (.jmpAbs w) s, rfl, frame_setPc w s⟩, fun hiAt hwrap hnext => ?_⟩
  have hhi : hiAt = 256 * (w.toNat / 256) + (w.toNat + 1) % 256 := by
    by_cases h : w.toNat % 256 = 255
    · rw [hwrap h]
      omega
    · rw [hnext h]
      omega
  refine ⟨_, exec_eq (.jmpInd w) s, ?_, frame_jumpIndirect w s⟩
  rw [hhi]
  exact indirectTarget_toNat w s

/-! ### An address on the stack -/

theorem stackAddr_sub_one_ne (p : Byte) : stackAddr (p - 1#8) ≠ stackAddr p := fun h => by
  have := stackAddr_inj h
  bv_omega

theorem stackAddr_sub_two_ne (p : Byte) : stackAddr (p - 1#8 - 1#8) ≠ stackAddr p := fun h => by
  have := stackAddr_inj h
  bv_omega

/-- An address is its two bytes. -/
theorem toNat_hiByte_loByte (w : Addr) : 256 * (hiByte w).toNat + (loByte w).toNat = w.toNat := by
  rw [hiByte_toNat, loByte_toNat]
  omega

/-- The two bytes that a push of an address stores. -/
theorem pushAddr_read (w : Addr) {s : State} (h : Inv s) :
    (pushAddr w s).mem.read (stackAddr s.sp) = hiByte w ∧ (pushAddr w s).mem.read (stackAddr (s.sp - 1#8)) = loByte w := by
  rw [pushAddr_eq]
  constructor
  · rw [Memory.read_write_other _ _ _ _ (stackAddr_sub_one_ne s.sp).symm, Memory.read_write_same _ _ _ h]
  · exact Memory.read_write_same _ _ _ (Memory.write_wf _ _ _ h)

/-- RTS where the two bytes of `w` stand above SP. -/
theorem returnSub_of_read {t : State} {sp : Byte} {w : Addr} (hsp : t.sp = sp - 1#8 - 1#8)
    (hhi : t.mem.read (stackAddr sp) = hiByte w) (hlo : t.mem.read (stackAddr (sp - 1#8)) = loByte w) :
    (returnSub t).pc = w + 1#16 ∧ (returnSub t).sp = sp := by
  have h1 : t.sp + 1#8 = sp - 1#8 := by rw [hsp, BitVec.sub_add_cancel]
  have h2 : t.sp + 1#8 + 1#8 = sp := by rw [h1, BitVec.sub_add_cancel]
  rw [returnSub_eq, popAddr_fst, popAddr_snd, h2, h1, hhi, hlo, wordOf_hi_lo]
  exact ⟨rfl, rfl⟩

/-- RTI where `sr` and the two bytes of `w` stand above SP. -/
theorem returnFromBreak_of_read {t : State} {sp sr : Byte} {w : Addr} (hsp : t.sp = sp - 1#8 - 1#8 - 1#8)
    (hhi : t.mem.read (stackAddr sp) = hiByte w) (hlo : t.mem.read (stackAddr (sp - 1#8)) = loByte w)
    (hsr : t.mem.read (stackAddr (sp - 1#8 - 1#8)) = sr) :
    (returnFromBreak t).pc = w ∧ (returnFromBreak t).sp = sp ∧ (returnFromBreak t).sr = sr := by
  have h1 : t.sp + 1#8 = sp - 1#8 - 1#8 := by rw [hsp, BitVec.sub_add_cancel]
  have h2 : t.sp + 1#8 + 1#8 = sp - 1#8 := by rw [h1, BitVec.sub_add_cancel]
  have h3 : t.sp + 1#8 + 1#8 + 1#8 = sp := by rw [h2, BitVec.sub_add_cancel]
  rw [returnFromBreak_eq, h3, h2, h1, hhi, hlo, hsr, wordOf_hi_lo]
  exact ⟨rfl, rfl, rfl⟩

/-- Settles O37: `callSub` pushes PC less 1, `returnSub` pops an address and adds 1. -/
theorem callsAndReturnsUseTheStack : Obligations.CallsAndReturnsUseTheStack := by
  intro w s
  refine ⟨⟨callSub w s, exec_eq (.jsr w) s, rfl, BitVec.sub_sub s.sp 1#8 1#8, fun hinv => ?_, frame_callSub w s⟩,
    ⟨returnSub s, exec_eq .rts s, BitVec.add_assoc s.sp 1#8 1#8, ?_, frame_returnSub s⟩⟩
  · obtain ⟨hhi, hlo⟩ := pushAddr_read (s.pc - 1#16) hinv
    have hpc : (s.pc - 1#16).toNat = (s.pc.toNat + 65535) % 65536 := by
      rw [BitVec.toNat_sub]
      simp [Nat.add_comm]
    rw [callSub_eq, hhi, hlo, toNat_hiByte_loByte, hpc]
  · have h2 : s.sp + 1#8 + 1#8 = s.sp + 2#8 := BitVec.add_assoc s.sp 1#8 1#8
    rw [returnSub_eq, popAddr_fst, BitVec.toNat_add, wordOf_toNat_hi, h2]
    rfl

/-- Settles O38: RTS pops the address JSR pushed. -/
theorem jsrThenRtsResumesAfterTheCall : Obligations.JsrThenRtsResumesAfterTheCall := by
  intro w s hinv
  obtain ⟨hhi, hlo⟩ := pushAddr_read (s.pc - 1#16) hinv
  have hsp : (callSub w s).sp = s.sp - 1#8 - 1#8 := by rw [callSub_eq, pushAddr_eq]
  have hmem : (callSub w s).mem = (pushAddr (s.pc - 1#16) s).mem := by rw [callSub_eq]
  obtain ⟨hupc, husp⟩ := returnSub_of_read hsp (hmem ▸ hhi) (hmem ▸ hlo)
  have hframe := frame_trans (frame_callSub w s) (frame_returnSub (callSub w s))
  obtain ⟨ha, hx, hy, -, -⟩ := keeps_of_frame hframe
  have hsr : (returnSub (callSub w s)).sr = s.sr := sr_eq_of_flags _ _ fun f => hframe.keepsFlags f (List.not_mem_nil)
  refine ⟨callSub w s, returnSub (callSub w s), exec_eq (.jsr w) s, exec_eq .rts _, ?_, husp, ha (by decide), hx (by decide),
    hy (by decide), hsr⟩
  rw [hupc, BitVec.sub_add_cancel]

/-! ### The trap -/

/-- The three bytes of a trap's frame on the stack. -/
theorem breakFrame_read_slots {s : State} (h : Inv s) :
    (breakFrame s).read (stackAddr s.sp) = hiByte s.pc ∧ (breakFrame s).read (stackAddr (s.sp - 1#8)) = loByte s.pc ∧
      (breakFrame s).read (stackAddr (s.sp - 1#8 - 1#8)) = s.sr ||| flagMask .b := by
  have h1 := Memory.write_wf s.mem (stackAddr s.sp) (hiByte s.pc) h
  have h2 := Memory.write_wf _ (stackAddr (s.sp - 1#8)) (loByte s.pc) h1
  rw [breakFrame]
  refine ⟨?_, ?_, Memory.read_write_same _ _ _ h2⟩
  · rw [Memory.read_write_other _ _ _ _ (stackAddr_sub_two_ne s.sp).symm,
      Memory.read_write_other _ _ _ _ (stackAddr_sub_one_ne s.sp).symm, Memory.read_write_same _ _ _ h]
  · rw [Memory.read_write_other _ _ _ _ (stackAddr_sub_one_ne _).symm, Memory.read_write_same _ _ _ h1]

/-- The copy of SR that BRK pushes (60_exceptions.md D8). -/
theorem getFlag_pushedSr (f : Flag) (sr : Byte) : getFlag f (sr ||| flagMask .b) = if f = .b then true else getFlag f sr :=
  getFlag_putFlag .b f true sr

/-- Settles O40: `takeBreak_eq`, with the frame's bytes read back. -/
theorem brkTakesTheTrap : Obligations.BrkTakesTheTrap := by
  intro s
  have hsp2 : s.sp - 1#8 - 1#8 = s.sp - 2#8 := BitVec.sub_sub s.sp 1#8 1#8
  have hsp3 : s.sp - 2#8 - 1#8 = s.sp - 3#8 := BitVec.sub_sub s.sp 2#8 1#8
  have heq := takeBreak_eq s
  refine ⟨takeBreak s, exec_eq .brk s, ?_, ?_, ?_, fun hinv => ?_, frame_takeBreak s⟩
  · rw [heq, hsp2, hsp3]
  · rw [heq, getFlag_putFlag, if_pos rfl]
  · rw [heq, wordOf_toNat_hi]
    rfl
  · obtain ⟨hhi, hlo, hsr⟩ := breakFrame_read_slots hinv
    rw [hsp2] at hsr
    rw [heq, hhi, hlo, hsr, toNat_hiByte_loByte]
    exact ⟨rfl, by rw [getFlag_pushedSr, if_pos rfl], fun f hf => by rw [getFlag_pushedSr, if_neg hf]⟩

/-- Settles O41: `returnFromBreak_eq`. -/
theorem rtiReturnsFromTheTrap : Obligations.RtiReturnsFromTheTrap := by
  intro s
  have hsp2 : s.sp + 1#8 + 1#8 = s.sp + 2#8 := BitVec.add_assoc s.sp 1#8 1#8
  have hsp3 : s.sp + 2#8 + 1#8 = s.sp + 3#8 := BitVec.add_assoc s.sp 2#8 1#8
  refine ⟨returnFromBreak s, exec_eq .rti s, ?_, ?_, ?_, frame_returnFromBreak s⟩
  · rw [returnFromBreak_eq, hsp2, hsp3]
  · rw [returnFromBreak_eq]
  · rw [returnFromBreak_eq, wordOf_toNat_hi, hsp2, hsp3]

/-- Settles O42: RTI pops the copy of SR and then the address that BRK pushed. -/
theorem brkThenRtiResumesAfterTheBreak : Obligations.BrkThenRtiResumesAfterTheBreak := by
  intro s hinv
  obtain ⟨hhi, hlo, hsr⟩ := breakFrame_read_slots hinv
  have hsp : (takeBreak s).sp = s.sp - 1#8 - 1#8 - 1#8 := by rw [takeBreak_eq]
  have hmem : (takeBreak s).mem = breakFrame s := by rw [takeBreak_eq]
  obtain ⟨hupc, husp, husr⟩ := returnFromBreak_of_read hsp (hmem ▸ hhi) (hmem ▸ hlo) (hmem ▸ hsr)
  obtain ⟨ha, hx, hy, -, -⟩ := keeps_of_frame (frame_trans (frame_takeBreak s) (frame_returnFromBreak (takeBreak s)))
  refine ⟨takeBreak s, returnFromBreak (takeBreak s), exec_eq .brk s, exec_eq .rti _, hupc, husp, ha (by decide),
    hx (by decide), hy (by decide), ?_⟩
  rw [husr]
  exact ⟨by rw [getFlag_pushedSr, if_pos rfl], fun f hf => by rw [getFlag_pushedSr, if_neg hf]⟩

/-! ### Branches and flag instructions -/

/-- A branch takes its target exactly where its table's condition holds. -/
theorem effect_of_branchTest {n : Mnemonic} {f : Flag} {b : Bool} (h : branchTest n = some (f, b)) (d : Byte) (s : State) :
    effect n (.relative d) s = branchIf (getFlag f s.sr == b) d s := by
  cases n with
  | bpl | bmi | bvc | bvs | bcc | bcs | bne | beq =>
    cases h
    simp [effect, atRelative]
  | _ => cases h

/-- Settles O50: `effect_of_branchTest`, with the target as the number R71 gives. -/
theorem branchesMovePcWhenTheirConditionHolds : Obligations.BranchesMovePcWhenTheirConditionHolds := by
  intro i d s f b hd hb
  have hexec : exec i s = .next (branchIf (getFlag f s.sr == b) d s) := by
    rw [exec_eq, hd, effect_of_branchTest hb]
  refine ⟨_, hexec, fun htaken => ?_, fun hnot => ?_, frame_branchIf _ d s⟩
  · rw [beq_iff_eq.2 htaken]
    exact branchTarget_toNat d s
  · rw [beq_false_of_ne hnot]
    rfl

/-- Settles O51: `flagEffect` is the flag and the value that the instruction writes. -/
theorem flagInstructionsWriteOneBit : Obligations.FlagInstructionsWriteOneBit := by
  intro i f b s h
  have hexec : effect i.mnemonic i.operand s = updFlag f b s := by
    generalize i.mnemonic = n at h
    cases n with
    | clc | sec | cli | sei | clv | cld | sed =>
      cases h
      rfl
    | _ => cases h
  refine ⟨updFlag f b s, (exec_eq i s).trans (congrArg _ hexec), ?_, frame_updFlag f b s⟩
  rw [updFlag_eq, getFlag_putFlag, if_pos rfl]

end Sys2Proof.Machine

/-! Arithmetic, compares, shifts and rotates as numbers (47_arith_compare.md, 48_shift_rotate.md): O44, O45, O47 to O49. -/

namespace Sys2Proof.Machine

open Sys2Proof.Claims

/-! ### The sum -/

theorem addWithCarry_value (a m : Byte) (c : Bool) :
    (addWithCarry a m c).value.toNat = (a.toNat + m.toNat + c.toNat) % 256 := BitVec.toNat_ofNat ..

theorem addWithCarry_carry (a m : Byte) (c : Bool) :
    (addWithCarry a m c).carry = decide (255 < a.toNat + m.toNat + c.toNat) := by
  have ha := a.isLt
  have hm := m.isLt
  have hc := c.toNat_le
  rw [addWithCarry, Nat.testBit_eq_decide_div_mod_eq]
  exact decide_eq_decide.2 (by omega)

/-- The two's complement reading of a byte by its bit 7. -/
theorem toInt_eq_of_msb (v : Byte) : v.toInt = (v.toNat : Int) - if v.msb then 256 else 0 := by
  rw [BitVec.toInt_eq_msb_cond]
  split <;> simp

/-- Overflow: the operands' signs agree and the result's is the other (47_arith_compare.md R138). -/
theorem addWithCarry_overflow (a m : Byte) (c : Bool) :
    (addWithCarry a m c).overflow = true ↔ outOfSignedRange (a.toInt + m.toInt + (c.toNat : Int)) := by
  have hr := addWithCarry_value a m c
  have hover : (addWithCarry a m c).overflow =
      ((a.msb ^^ (addWithCarry a m c).value.msb) && (m.msb ^^ (addWithCarry a m c).value.msb)) := by
    simp [addWithCarry]
  rw [hover, outOfSignedRange, toInt_eq_of_msb a, toInt_eq_of_msb m, BitVec.msb_eq_decide a, BitVec.msb_eq_decide m,
    BitVec.msb_eq_decide (addWithCarry a m c).value, hr]
  have ha := a.isLt
  have hm := m.isLt
  have hc := c.toNat_le
  by_cases h1 : 128 ≤ a.toNat <;> by_cases h2 : 128 ≤ m.toNat <;> simp [h1, h2] <;> omega

/-- Settles O44: A, the operand and Carry as numbers. -/
theorem adcAddsWithCarry : Obligations.AdcAddsWithCarry := by
  intro i src s hi hsrc
  refine ⟨addA src s, exec_source hi s (fun _ => rfl) hsrc, ?_, ?_, ?_, nzOf_addA src s, frame_addA src s⟩
  · rw [addA_eq]
    exact addWithCarry_value ..
  · rw [addA_eq, getFlag_addFlags]
    exact addWithCarry_carry ..
  · rw [addA_eq, getFlag_addFlags]
    exact addWithCarry_overflow ..

theorem toNat_complement (m : Byte) : (~~~m).toNat = 255 - m.toNat := BitVec.toNat_not

theorem toInt_complement (m : Byte) : (~~~m).toInt = -1 - m.toInt := by
  have hm := m.isLt
  rw [toInt_eq_of_msb, toInt_eq_of_msb m, BitVec.msb_not, toNat_complement]
  cases m.msb <;> simp <;> omega

/-- Settles O45: the operand's complement is 255 less the operand, and -1 less its two's complement reading. -/
theorem sbcSubtractsWithBorrow : Obligations.SbcSubtractsWithBorrow := by
  intro i src s hi hsrc
  have ha := s.a.isLt
  have hm := (readSource src s).1.isLt
  have hc := (getFlag .c s.sr).toNat_le
  have hnot := toNat_complement (readSource src s).1
  refine ⟨subA src s, exec_source hi s (fun _ => rfl) hsrc, ?_, ?_, ?_, nzOf_subA src s, frame_subA src s⟩
  · rw [subA_eq]
    rw [subWithBorrow, addWithCarry_value, hnot, carryIn]
    omega
  · rw [subA_eq, getFlag_addFlags]
    rw [if_neg (by decide), if_neg (by decide), if_neg (by decide), if_pos rfl, subWithBorrow, addWithCarry_carry, hnot, carryIn]
    exact decide_eq_decide.2 (by omega)
  · rw [subA_eq, getFlag_addFlags]
    rw [if_neg (by decide), if_neg (by decide), if_pos rfl, subWithBorrow, addWithCarry_overflow, toInt_complement, carryIn,
      outOfSignedRange, outOfSignedRange]
    omega

/-! ### Compares -/

theorem toNat_sub_byte (r m : Byte) : (r - m).toNat = (r.toNat + 256 - m.toNat) % 256 := by
  have hm := m.isLt
  rw [BitVec.toNat_sub]
  congr 1
  omega

theorem sub_eq_zero_iff (r m : Byte) : r - m = 0#8 ↔ r = m := by
  constructor
  · intro h
    bv_omega
  · rintro rfl
    exact BitVec.sub_self r

/-- Settles O47: `compareFlags`, with the difference as a number. -/
theorem comparesSetCarryZeroNegative : Obligations.ComparesSetCarryZeroNegative := by
  intro i src s r hsrc hr
  have hexec : exec i s = .next (compareWith r src s) := by
    rcases hr with ⟨hi, rfl⟩ | ⟨hi, rfl⟩ | ⟨hi, rfl⟩
    · exact exec_source (f := fun src s => compareWith s.a src s) hi s (fun _ => rfl) hsrc
    · exact exec_source (f := fun src s => compareWith s.x src s) hi s (fun _ => rfl) hsrc
    · exact exec_source (f := fun src s => compareWith s.y src s) hi s (fun _ => rfl) hsrc
  refine ⟨_, hexec, ?_, ?_, ?_, frame_compareWith r src s⟩
  · rw [compareWith_eq, getFlag_compareFlags]
    rfl
  · rw [compareWith_eq, getFlag_compareFlags]
    exact decide_eq_decide.2 (sub_eq_zero_iff r _)
  · rw [compareWith_eq, getFlag_compareFlags, if_pos rfl, BitVec.msb_eq_decide, toNat_sub_byte]

/-! ### Shifts and rotates -/

theorem getLsbD_seven (v : Byte) : v.getLsbD 7 = decide (128 ≤ v.toNat) :=
  (BitVec.msb_eq_getLsbD_last v).symm.trans (BitVec.msb_eq_decide v)

theorem getLsbD_zero_eq (v : Byte) : v.getLsbD 0 = decide (v.toNat % 2 = 1) := Nat.testBit_zero ..

theorem toNat_shiftLeft_one (v : Byte) : (v <<< 1).toNat = (2 * v.toNat) % 256 := by
  rw [BitVec.toNat_shiftLeft, Nat.shiftLeft_eq, Nat.mul_comm]

theorem toNat_shiftRight_one (v : Byte) : (v >>> 1).toNat = v.toNat / 2 := by
  rw [BitVec.toNat_ushiftRight, Nat.shiftRight_eq_div_pow]

theorem toNat_bitByte (c : Bool) : (bitByte c).toNat = c.toNat := by
  cases c <;> rfl

theorem getLsbD_bitByte (c : Bool) (k : Nat) : (bitByte c).getLsbD k = (decide (k = 0) && c) := by
  cases c with
  | false => simp [bitByte]
  | true => simp [bitByte, BitVec.getLsbD_one]

/-- Bit `k` of a byte rotated to the left: Carry in the place that the shift left free. -/
theorem getLsbD_rol (v : Byte) (c : Bool) {k : Nat} (hk : k < 8) :
    (rolResult v c).value.getLsbD k = if k = 0 then c else v.getLsbD (k - 1) := by
  rw [rolResult, BitVec.getLsbD_or, BitVec.getLsbD_shiftLeft, getLsbD_bitByte]
  rcases k with _ | k
  · simp
  · simp [hk]

/-- Bit `k` of a byte rotated to the right. -/
theorem getLsbD_ror (v : Byte) (c : Bool) {k : Nat} (hk : k < 8) :
    (rorResult v c).value.getLsbD k = if k = 7 then c else v.getLsbD (k + 1) := by
  rw [rorResult, BitVec.getLsbD_or, BitVec.getLsbD_ushiftRight, BitVec.getLsbD_shiftLeft, getLsbD_bitByte, Nat.add_comm 1 k]
  by_cases h7 : k = 7
  · have hout : v.getLsbD (k + 1) = false := BitVec.getLsbD_of_ge _ _ (by omega)
    rw [hout]
    simp [h7]
  · have hlt : k < 7 := by omega
    simp [h7, hlt]

/-- The place that a shift to the left leaves free. -/
theorem shiftLeft_or_bitByte (v : Byte) (c : Bool) : (v <<< 1) ||| bitByte c = (v <<< 1) + bitByte c := by
  refine (BitVec.add_eq_or_of_and_eq_zero _ _ (BitVec.eq_of_getLsbD_eq fun k hk => ?_)).symm
  rcases k with _ | k <;> simp [getLsbD_bitByte]

/-- The place that a shift to the right leaves free. -/
theorem shiftRight_or_bitByte (v : Byte) (c : Bool) : (v >>> 1) ||| (bitByte c <<< 7) = (v >>> 1) + (bitByte c <<< 7) := by
  refine (BitVec.add_eq_or_of_and_eq_zero _ _ (BitVec.eq_of_getLsbD_eq fun k hk => ?_)).symm
  by_cases h7 : k < 7
  · simp [h7]
  · have hout : v.getLsbD (1 + k) = false := BitVec.getLsbD_of_ge _ _ (by omega)
    simp [hout]

theorem rolResult_value (v : Byte) (c : Bool) : (rolResult v c).value.toNat = (2 * v.toNat + c.toNat) % 256 := by
  rw [rolResult, shiftLeft_or_bitByte, BitVec.toNat_add, toNat_shiftLeft_one, toNat_bitByte]
  omega

theorem rorResult_value (v : Byte) (c : Bool) : (rorResult v c).value.toNat = v.toNat / 2 + 128 * c.toNat := by
  have hv := v.isLt
  have hbit : (bitByte c <<< 7).toNat = 128 * c.toNat := by cases c <;> rfl
  have hc := c.toNat_le
  rw [rorResult, shiftRight_or_bitByte, BitVec.toNat_add, toNat_shiftRight_one, hbit]
  omega

/-- A shift or rotate: Carry, Z and N, and its place, from the result of its function on the byte there and Carry. -/
theorem shiftPlace_result (f : Byte → Bool → ShiftResult) (p : Place) (s : State) :
    getFlag .c (shiftPlace f p s).sr = (f (placeValue p s) (getFlag .c s.sr)).carry ∧
      NzOf (f (placeValue p s) (getFlag .c s.sr)).value (shiftPlace f p s) ∧
      (p = .acc → (shiftPlace f p s).a = (f (placeValue p s) (getFlag .c s.sr)).value) ∧
      ∀ m, p = .mem m → Inv s → (shiftPlace f p s).mem.read (effAddr m s).1 = (f (placeValue p s) (getFlag .c s.sr)).value := by
  cases p with
  | acc =>
    rw [shiftPlace_acc_eq]
    exact ⟨getFlag_shiftFlags .., nzOf_of_sr rfl, fun _ => rfl, fun _ h => Place.noConfusion h⟩
  | mem m =>
    rw [shiftPlace_mem_eq]
    refine ⟨getFlag_shiftFlags .., nzOf_of_sr rfl, fun h => Place.noConfusion h, fun m' h hinv => ?_⟩
    cases h
    exact Memory.read_write_same _ _ _ hinv

/-- Settles O48: `shiftPlace_result` with each function's result as a number. -/
theorem shiftsMoveOneBitThroughCarry : Obligations.ShiftsMoveOneBitThroughCarry := by
  intro i p s hp hi
  have hno {n n' : Mnemonic} {P : Prop} (h : i.mnemonic = n) (hne : n ≠ n') : i.mnemonic = n' → P :=
    fun h' => absurd (h.symm.trans h') hne
  simp only [List.mem_cons, List.not_mem_nil, or_false] at hi
  rcases hi with hi | hi | hi | hi
  · obtain ⟨hc, hnz, hacc, hmem⟩ := shiftPlace_result aslResult p s
    exact ⟨_, _, exec_place hi s (fun _ => rfl) hp, fun _ => ⟨toNat_shiftLeft_one _, hc.trans (getLsbD_seven _)⟩,
      hno hi (by decide), hno hi (by decide), hno hi (by decide), hnz, hacc, hmem, frame_shiftPlace _ p s⟩
  · obtain ⟨hc, hnz, hacc, hmem⟩ := shiftPlace_result lsrResult p s
    exact ⟨_, _, exec_place hi s (fun _ => rfl) hp, hno hi (by decide), hno hi (by decide),
      fun _ => ⟨toNat_shiftRight_one _, hc.trans (getLsbD_zero_eq _)⟩, hno hi (by decide), hnz, hacc, hmem,
      frame_shiftPlace _ p s⟩
  · obtain ⟨hc, hnz, hacc, hmem⟩ := shiftPlace_result rolResult p s
    exact ⟨_, _, exec_place hi s (fun _ => rfl) hp, hno hi (by decide),
      fun _ => ⟨rolResult_value _ _, hc.trans (getLsbD_seven _)⟩, hno hi (by decide), hno hi (by decide), hnz, hacc, hmem,
      frame_shiftPlace _ p s⟩
  · obtain ⟨hc, hnz, hacc, hmem⟩ := shiftPlace_result rorResult p s
    exact ⟨_, _, exec_place hi s (fun _ => rfl) hp, hno hi (by decide), hno hi (by decide), hno hi (by decide),
      fun _ => ⟨rorResult_value _ _, hc.trans (getLsbD_zero_eq _)⟩, hnz, hacc, hmem, frame_shiftPlace _ p s⟩

/-! ### Nine rotations -/

/-- A and Carry as nine bits, Carry the highest. -/
def nineBit (s : State) (k : Nat) : Bool := if k = 8 then getFlag .c s.sr else s.a.getLsbD k

/-- ROL moves each of the nine bits one place up, the highest to the lowest. -/
theorem nineBit_rol (s : State) {k : Nat} (hk : k < 9) :
    nineBit (shiftPlace rolResult .acc s) ((k + 1) % 9) = nineBit s k := by
  have hcarry : getFlag .c (shiftPlace rolResult .acc s).sr = s.a.getLsbD 7 := (shiftPlace_result rolResult .acc s).1
  have hbit {j : Nat} (hj : j < 8) : (shiftPlace rolResult .acc s).a.getLsbD j =
      if j = 0 then getFlag .c s.sr else s.a.getLsbD (j - 1) := getLsbD_rol s.a (getFlag .c s.sr) hj
  rcases Nat.lt_trichotomy k 7 with h | rfl | h
  · have hplace : (k + 1) % 9 = k + 1 := by omega
    have h8 : k ≠ 8 := by omega
    have h7 : k ≠ 7 := by omega
    simp [nineBit, hplace, hbit (show k + 1 < 8 by omega), h8, h7]
  · simp [nineBit, hcarry]
  · obtain rfl : k = 8 := by omega
    exact hbit (j := 0) (by decide)

/-- ROR moves each of the nine bits one place down, the lowest to the highest. -/
theorem nineBit_ror (s : State) {k : Nat} (hk : k < 9) :
    nineBit (shiftPlace rorResult .acc s) k = nineBit s ((k + 1) % 9) := by
  have hcarry : getFlag .c (shiftPlace rorResult .acc s).sr = s.a.getLsbD 0 := (shiftPlace_result rorResult .acc s).1
  have hbit {j : Nat} (hj : j < 8) : (shiftPlace rorResult .acc s).a.getLsbD j =
      if j = 7 then getFlag .c s.sr else s.a.getLsbD (j + 1) := getLsbD_ror s.a (getFlag .c s.sr) hj
  rcases Nat.lt_trichotomy k 7 with h | rfl | h
  · have hplace : (k + 1) % 9 = k + 1 := by omega
    have h8 : k ≠ 8 := by omega
    have h7 : k ≠ 7 := by omega
    simp [nineBit, hplace, hbit (show k < 8 by omega), h8, h7]
  · exact hbit (j := 7) (by decide)
  · obtain rfl : k = 8 := by omega
    simp [nineBit, hcarry]

/-- An instruction repeated is its effect iterated. -/
theorem repeatExec_eq (i : Instr) (n : Nat) (s : State) :
    repeatExec i n s = some ((effect i.mnemonic i.operand)^[n] s) := by
  induction n generalizing s with
  | zero => rfl
  | succ n ih => rw [repeatExec, exec_eq, Function.iterate_succ_apply]; exact ih _

theorem nineBit_rol_iterate (s : State) (n : Nat) {k : Nat} (hk : k < 9) :
    nineBit ((shiftPlace rolResult .acc)^[n] s) ((k + n) % 9) = nineBit s k := by
  induction n with
  | zero => rw [Nat.add_zero, Nat.mod_eq_of_lt hk, Function.iterate_zero_apply]
  | succ n ih =>
    have hplace : (k + (n + 1)) % 9 = ((k + n) % 9 + 1) % 9 := by omega
    rw [hplace, Function.iterate_succ_apply', nineBit_rol _ (Nat.mod_lt _ (by decide)), ih]

theorem nineBit_ror_iterate (s : State) (n : Nat) {k : Nat} (hk : k < 9) :
    nineBit ((shiftPlace rorResult .acc)^[n] s) k = nineBit s ((k + n) % 9) := by
  induction n generalizing k with
  | zero => rw [Nat.add_zero, Nat.mod_eq_of_lt hk, Function.iterate_zero_apply]
  | succ n ih =>
    have hplace : (k + (n + 1)) % 9 = ((k + 1) % 9 + n) % 9 := by omega
    rw [hplace, Function.iterate_succ_apply', nineBit_ror _ hk, ih (Nat.mod_lt _ (by decide))]

/-- The nine bits are A and Carry. -/
theorem eq_of_nineBit {s t : State} (h : ∀ k < 9, nineBit t k = nineBit s k) : t.a = s.a ∧ getFlag .c t.sr = getFlag .c s.sr := by
  refine ⟨BitVec.eq_of_getLsbD_eq fun k hk => ?_, h 8 (by decide)⟩
  have hne : k ≠ 8 := by omega
  simpa [nineBit, hne] using h k (by omega)

/-- Settles O49: after nine rotations each of the nine bits is back in its place. -/
theorem nineRotationsRestoreAAndCarry : Obligations.NineRotationsRestoreAAndCarry := by
  intro s i hi
  have hback {k : Nat} (hk : k < 9) : (k + 9) % 9 = k := by omega
  refine ⟨_, repeatExec_eq i 9 s, eq_of_nineBit fun k hk => ?_⟩
  rcases hi with rfl | rfl
  · have h := nineBit_rol_iterate s 9 hk
    rwa [hback hk] at h
  · have h := nineBit_ror_iterate s 9 hk
    rwa [hback hk] at h

end Sys2Proof.Machine
